-- ==== Sys2Proof/Word.lean ====
section
/-! DEFINITION. The word types of the block: bytes, 16-bit words and 24-bit bus addresses
(00_scope.md R6, R7; 20_memory.md R70). -/

namespace Sys2Proof

/-- An 8-bit value: a memory byte, a bank, the status register P. -/
abbrev Byte := BitVec 8

/-- A 16-bit value: a register, an offset within a bank. -/
abbrev Word := BitVec 16

/-- A bus address, the 24-bit number `bank * 0x10000 + offset` of R70. -/
abbrev Address := BitVec 24

end Sys2Proof
end

