-- ==== Sys2Proof/Machine/Bits.lean ====
section
/-! DEFINITION. Byte order, sign extension, and the two address arithmetics: within a bank
(20_memory.md R71) and across banks (41_addressing.md R180). -/

namespace Sys2Proof.Machine

/-- `v[7:0]`. -/
def lowByte (v : Word) : Byte := v.extractLsb' 0 8

/-- `v[15:8]`. -/
def highByte (v : Word) : Byte := v.extractLsb' 8 8

/-- `hi * 0x100 + lo` (00_scope.md R7): little-endian composition, the low byte given second. -/
def joinBytes (hi lo : Byte) : Word := hi ++ lo

/-- The bank of an address (20_memory.md R70). -/
def bankOf (a : Address) : Byte := a.extractLsb' 16 8

/-- The offset of an address within its bank (20_memory.md R70). -/
def offsetOf (a : Address) : Word := a.extractLsb' 0 16

/-- `bank:offset` (20_memory.md R70). -/
def mkAddress (bank : Byte) (offset : Word) : Address := bank ++ offset

/-- The zero address (20_memory.md R72). -/
def zeroAddress : Address := mkAddress 0 0

/-- `Address` arithmetic: the offset wraps and the bank stays (20_memory.md R71). -/
def addOffset (a : Address) (k : Nat) : Address :=
  mkAddress (bankOf a) (offsetOf a + BitVec.ofNat 16 k)

/-- `sext_8` read mod 2^16 (00_scope.md R8). -/
def signExtend8 (b : Byte) : Word := b.signExtend 16

/-- `zext` of a byte to 16 bits. -/
def zeroExtend8 (b : Byte) : Word := b.setWidth 16

/-- `zext` of a word to 24 bits, for an index added to a 24-bit address. -/
def zeroExtend16 (v : Word) : Address := v.setWidth 24

end Sys2Proof.Machine
end

