-- ==== Sys2Proof/Config.lean ====
section
/-! DEFINITION. What is fixed when the core is constructed (10_state.md R46, R47, R49;
00_scope.md R6), and the behaviours the spec leaves to the devices (20_memory.md R75). -/

namespace Sys2Proof

/-- The emulation-mode vector table `vecE` (10_state.md R46): offsets into bank 0.
In emulation mode BRK shares the IRQ vector. -/
structure VecE where
  cop    : Word
  abort  : Word
  nmi    : Word
  reset  : Word
  irqbrk : Word
deriving DecidableEq, Repr

/-- The native-mode vector table `vecN` (10_state.md R47): offsets into bank 0. -/
structure VecN where
  cop   : Word
  brk   : Word
  abort : Word
  nmi   : Word
  reset : Word
  irq   : Word
deriving DecidableEq, Repr

/-- The parameters a core is constructed with (00_scope.md R6). `STACK_RESET` must have the high
byte 0x01, so only its low byte is a field. -/
structure Config where
  vecE          : VecE
  vecN          : VecN
  stackResetLow : Byte
  resInit       : Bool
  rdyInit       : Bool
deriving DecidableEq, Repr

namespace Config

/-- `STACK_RESET` (00_scope.md R6, 92_eei_decisions.md D6). -/
def stackReset (k : Config) : Word := 0x01#8 ++ k.stackResetLow

/-- DESIGN CHOICE (log entries 1 and 3): the reference values of the open parameters, as
95_test_vectors.md section 2.0 and 92_eei_decisions.md fix them for the spec's own start state. -/
def reference : Config where
  vecE := { cop := 0xFFF0, abort := 0, nmi := 0, reset := 0x8000, irqbrk := 0x9000 }
  vecN := { cop := 0xA000, brk := 0xA100, abort := 0, nmi := 0, reset := 0, irq := 0 }
  stackResetLow := 0xFF
  resInit := false
  rdyInit := true

/-- The decode of a device that is not the reference RAM: a total pure function of the global
address, given by the device's number (20_memory.md R74, R75). DESIGN CHOICE (log entry 6): it is
uninterpreted. -/
opaque deviceDecode : Nat → Address → Option Address

/-- The read of such a device: from its state and the local address, the byte and the state after
(20_memory.md R75). DESIGN CHOICE (log entry 6): it is uninterpreted, and the state is a Nat. -/
opaque deviceRead : Nat → Nat → Address → Byte × Nat

/-- The store of such a device: from its state, the local address and the byte, the state after
(20_memory.md R75). DESIGN CHOICE (log entry 6): it is uninterpreted. -/
opaque deviceStore : Nat → Nat → Address → Byte → Nat

end Config

end Sys2Proof
end

