-- ==== Sys2Proof/Machine/State.lean ====
section
/-! DEFINITION. The state of the block: the core's tuple (10_state.md R20), the bus with its devices
(20_memory.md R75, R76) and the configuration the core was constructed with (10_state.md R49); the
reasons a step can stop; and the state after reset. -/

namespace Sys2Proof.Machine

/-- The run state (10_state.md R45). -/
inductive RunState where
  | running
  | waiting
  | stopped
deriving DecidableEq, Repr

/-- A device's bytes by local address, in one canonical form (`Memory.wf`): addresses strictly rising,
no entry equal to what an unlisted address reads as. -/
abbrev Memory := List Host.Cell

/-- A bus device (20_memory.md R74, R75). -/
inductive Device where
  /-- The reference RAM device `RAM(lo, hi, init)` (20_memory.md R102): it claims the 24-bit numbers
  from `lo` to `hi` as they are, and `cells` holds its bytes. -/
  | ram (lo hi : Nat) (cells : Memory)
  /-- Any other device, by its number and its own state: its decode, read and store are the
  uninterpreted functions of `Config.lean` (R75; log entry 6). -/
  | external (id : Nat) (state : Nat)
deriving DecidableEq, Repr

/-- The bus: the registered devices, in registration order, which is decode priority
(20_memory.md R76, R77). -/
structure Bus where
  devices : List Device
deriving DecidableEq, Repr

/-- The state of the block (10_state.md R20, 20_memory.md R76, 10_state.md R49). -/
structure State where
  /-- The accumulator C; A is its low byte and B its high byte (R21). -/
  c      : Word
  /-- The index register X (R22). -/
  x      : Word
  /-- The index register Y (R23). -/
  y      : Word
  /-- The direct-page register D (R24). -/
  d      : Word
  /-- The stack pointer S, a bank-0 offset that names the next free stack byte (R25). -/
  sp     : Word
  /-- The data bank register DBR (R26). -/
  dbr    : Byte
  /-- The bank of the program address, PBR (R27). -/
  pbr    : Byte
  /-- The offset of the program address, PC (R27). -/
  pc     : Word
  /-- The status register P, bits N V M X D I Z C from bit 7 to bit 0 (R28). -/
  p      : Byte
  /-- The emulation flag E (R29). -/
  e      : Bool
  /-- The cycle counter (R42). -/
  cycles : Int
  /-- The RES pin; true is held in reset (R43). -/
  res    : Bool
  /-- The RDY pin (R44). -/
  rdy    : Bool
  /-- The run state (R45). -/
  run    : RunState
  /-- The bus and its devices (20_memory.md R76). -/
  bus    : Bus
  /-- The vector tables and the other parameters, fixed at construction (R46, R47, R49). -/
  cfg    : Config
deriving DecidableEq, Repr

/-- The reasons a step can stop with a fault: there are none. No instruction and no bus access raises
an exception (60_exceptions.md R400; 40_core_loop.md R170; 20_memory.md R95). -/
inductive Fault where
deriving DecidableEq, Repr

/-- The reasons an instruction has no meaning. -/
inductive Refusal where
  /-- The dispatch arm of an instruction that is not modelled yet raises it, by the row's mnemonic.
  Safe: the model stops where the hardware goes on. No arm raises it now: every row has its meaning. -/
  | notModelled (mnemonic : String)
deriving DecidableEq, Repr

/-- What a meaning answers. -/
abbrev Result := Host.Outcome State Fault Refusal

/-- The machine right after reset (10_state.md R51), in the boot order of 70_reset_and_hazards.md
R454: constructed, devices registered, reset, with RES false (R456).
The values the spec gives are `e`, bits 5 and 4 of `p`, the high bytes of `x` and `y`, `d`, `pbr`,
`run` and, of a fresh core, `cycles`. DESIGN CHOICE for the others: the configuration and with it `sp`
and `pc` (log entry 1), `c`, `x`, `y`, `dbr` and the other bits of `p` (log entry 2), the pins (log
entry 3), the registered device (log entry 4) and its bytes (log entry 5). They are the spec's own
start state V0 (95_test_vectors.md section 2.0). -/
def State.reset : State where
  c      := 0
  x      := 0
  y      := 0
  d      := 0
  sp     := 0x01FF
  dbr    := 0
  pbr    := 0
  pc     := 0x8000
  p      := 0x34
  e      := true
  cycles := 0
  res    := false
  rdy    := true
  run    := .running
  bus    := { devices := [.ram 0x000000 0xFFFFFF []] }
  cfg    := Config.reference

end Sys2Proof.Machine
end

