-- ==== Sys2Proof/Machine/Bus.lean ====
section
/-! DEFINITION. Memory cells, devices and the bus operations (20_memory.md R70 to R102). -/

namespace Sys2Proof.Machine

/-! ### The bytes of a RAM device -/

/-- What an unlisted address of a RAM device reads as. DESIGN CHOICE (log entry 5). -/
def Memory.unlisted : Byte := 0x00

/-- The canonical form: addresses strictly rising and inside the 24-bit space, and no entry equal to
what an unlisted address reads as. -/
abbrev Memory.wf (m : Memory) : Prop :=
  m.Pairwise (fun a b => a.1 < b.1) ∧ ∀ c ∈ m, c.1 < 2 ^ 24 ∧ c.2 ≠ Memory.unlisted

/-- The byte at a local address (R102). -/
def Memory.read (m : Memory) (a : Nat) : Byte :=
  match m with
  | [] => Memory.unlisted
  | (k, v) :: rest => if k = a then v else Memory.read rest a

/-- The memory with the byte at a local address replaced, in canonical form (R102). -/
def Memory.write (m : Memory) (a : Nat) (v : Byte) : Memory :=
  match m with
  | [] => if v = Memory.unlisted then [] else [(a, v)]
  | (k, w) :: rest =>
    if a < k then (if v = Memory.unlisted then (k, w) :: rest else (a, v) :: (k, w) :: rest)
    else if k = a then (if v = Memory.unlisted then rest else (a, v) :: rest)
    else (k, w) :: Memory.write rest a v

/-- The canonical memory that holds the given bytes, a later pair winning over an earlier one. -/
def Memory.ofCells (cells : List Host.Cell) : Memory :=
  cells.foldl (fun m c => Memory.write m (c.1 % 2 ^ 24) c.2) []

/-! ### Devices -/

/-- `decodeAddress`: pure, the local address when the device claims the global one (R74, R102). -/
def Device.decode (d : Device) (a : Address) : Option Address :=
  match d with
  | .ram lo hi _   => if lo ≤ a.toNat ∧ a.toNat ≤ hi then some a else none
  | .external id _ => Config.deviceDecode id a

/-- A device's answer to a read: the byte, and the device after it. -/
structure DeviceRead where
  val : Byte
  dev : Device
deriving DecidableEq, Repr

/-- A device's `readByte` at a local address; it may change the device's state (R74, R75). -/
def Device.read (d : Device) (l : Address) : DeviceRead :=
  match d with
  | .ram lo hi cells => { val := cells.read l.toNat, dev := .ram lo hi cells }
  | .external id st  =>
    { val := (Config.deviceRead id st l).1, dev := .external id (Config.deviceRead id st l).2 }

/-- A device's `storeByte` at a local address (R74, R75). -/
def Device.store (d : Device) (l : Address) (v : Byte) : Device :=
  match d with
  | .ram lo hi cells => .ram lo hi (cells.write l.toNat v)
  | .external id st  => .external id (Config.deviceStore id st l v)

/-- The bytes of a RAM device are in canonical form. -/
def Device.wf (d : Device) : Bool :=
  match d with
  | .ram _ _ cells => decide cells.wf
  | .external _ _  => true

/-! ### The bus -/

/-- Which device answers an address, and where: its place in the registration order, the device, and
the local address (R78). -/
structure Claim where
  index : Nat
  dev   : Device
  loc   : Address
deriving DecidableEq, Repr

/-- The scan in registration order, which stops at the first device that decodes the address (R78). -/
def resolveIn (ds : List Device) (a : Address) : Option Claim :=
  match ds with
  | [] => none
  | d :: rest =>
    match d.decode a with
    | some l => some { index := 0, dev := d, loc := l }
    | none   => (resolveIn rest a).map fun c => { c with index := c.index + 1 }

/-- `Resolve(a)` (R78). -/
def Bus.resolve (b : Bus) (a : Address) : Option Claim := resolveIn b.devices a

/-- `registerDevice`: appended at the lowest priority, with no check (R77). -/
def Bus.registerDevice (b : Bus) (d : Device) : Bus := { devices := b.devices ++ [d] }

/-- The bus with one device replaced by itself in another state. -/
def Bus.setDevice (b : Bus) (i : Nat) (d : Device) : Bus := { devices := b.devices.set i d }

/-- The answer to a bus read: the value, and the bus after it. -/
structure BusRead (α : Type) where
  val : α
  bus : Bus
deriving DecidableEq, Repr

/-- `readByte` (R80): the claiming device's byte, 0 if no device claims the address. -/
def Bus.readByte (b : Bus) (a : Address) : BusRead Byte :=
  match b.resolve a with
  | some c => { val := (c.dev.read c.loc).val, bus := b.setDevice c.index (c.dev.read c.loc).dev }
  | none   => { val := 0x00, bus := b }

/-- `storeByte` (R81): dropped if no device claims the address. -/
def Bus.storeByte (b : Bus) (a : Address) (v : Byte) : Bus :=
  match b.resolve a with
  | some c => b.setDevice c.index (c.dev.store c.loc v)
  | none   => b

/-- `storeTwoBytes` (R82, R85): one decode, the low byte first, both bytes to that device; the local
address steps within its bank (R86). -/
def Bus.storeTwoBytes (b : Bus) (a : Address) (v : Word) : Bus :=
  match b.resolve a with
  | some c =>
    b.setDevice c.index ((c.dev.store c.loc (lowByte v)).store (addOffset c.loc 1) (highByte v))
  | none   => b

/-- `readTwoBytes` (R83, R85): one decode, the low byte first. -/
def Bus.readTwoBytes (b : Bus) (a : Address) : BusRead Word :=
  match b.resolve a with
  | some c =>
    let lo := c.dev.read c.loc
    let hi := lo.dev.read (addOffset c.loc 1)
    { val := joinBytes hi.val lo.val, bus := b.setDevice c.index hi.dev }
  | none   => { val := 0x0000, bus := b }

/-- `readAddressAt` (R84): one decode; offset low, offset high, bank; the zero address if no device
claims the address. -/
def Bus.readAddressAt (b : Bus) (a : Address) : BusRead Address :=
  match b.resolve a with
  | some c =>
    let lo := c.dev.read c.loc
    let hi := lo.dev.read (addOffset c.loc 1)
    let bk := hi.dev.read (addOffset c.loc 2)
    { val := mkAddress bk.val (joinBytes hi.val lo.val), bus := b.setDevice c.index bk.dev }
  | none   => { val := zeroAddress, bus := b }

/-- Every RAM device of the bus holds its bytes in canonical form. -/
abbrev Bus.wf (b : Bus) : Prop := ∀ d ∈ b.devices, d.wf = true

/-- What a read of an address would answer, where the model knows it without making the read: a RAM
byte, 0 where no device claims the address, nothing where another device does (R80, R92, R102).
This is the model's read of one byte for statements about memory. -/
def Bus.peek (b : Bus) (a : Address) : Option Byte :=
  match b.resolve a with
  | none   => some 0x00
  | some c =>
    match c.dev with
    | .ram _ _ cells => some (cells.read c.loc.toNat)
    | .external _ _  => none

end Sys2Proof.Machine
end

