-- ==== Sys2Proof/Machine/Flags.lean ====
section
/-! DEFINITION. Operand widths (00_scope.md R10), the status register P as a byte with named bits
(10_state.md R28), and every computation of a result with its flags (43_arith_logic.md,
44_shift_rotate.md). A computation is a function of the width, the operands and P, and answers the
result and the new P; it knows nothing of where the operands come from. -/

namespace Sys2Proof.Machine

/-! ### Widths -/

/-- The width of an operand: `wm` or `wx` (00_scope.md R10). -/
inductive Width where
  | w8
  | w16
deriving DecidableEq, Repr

/-- The width in bits. -/
def Width.bits (w : Width) : Nat :=
  match w with
  | .w8  => 8
  | .w16 => 16

/-- The width in bytes. -/
def Width.bytes (w : Width) : Nat :=
  match w with
  | .w8  => 1
  | .w16 => 2

/-- How many decimal digits the width holds (R260: `n = w / 4`). -/
def Width.digits (w : Width) : Nat :=
  match w with
  | .w8  => 2
  | .w16 => 4

/-- `mask(w)` (00_scope.md R10). -/
def Width.mask (w : Width) : Word :=
  match w with
  | .w8  => 0x00FF
  | .w16 => 0xFFFF

/-- `v mod 2^w`. -/
def Width.trunc (w : Width) (v : Word) : Word := v &&& w.mask

/-- `msb_w(v) = v[w-1]` (00_scope.md R10). -/
def Width.msb (w : Width) (v : Word) : Bool :=
  match w with
  | .w8  => v.getLsbD 7
  | .w16 => v.getLsbD 15

/-- `v[w-2]`, which BIT copies into V (43_arith_logic.md R268). -/
def Width.secondMsb (w : Width) (v : Word) : Bool :=
  match w with
  | .w8  => v.getLsbD 6
  | .w16 => v.getLsbD 14

/-- The width a predicate such as `accumulatorIs8BitWide()` selects (00_scope.md R10). -/
def Width.ofNarrow (narrow : Bool) : Width := if narrow then .w8 else .w16

/-! ### The status register -/

/-- The bits of P (10_state.md R28). -/
inductive Flag where
  | n | v | m | x | d | i | z | c
deriving DecidableEq, Repr

/-- The bit's place in P (R28). -/
def Flag.bit (f : Flag) : Nat :=
  match f with
  | .n => 7
  | .v => 6
  | .m => 5
  | .x => 4
  | .d => 3
  | .i => 2
  | .z => 1
  | .c => 0

/-- Reads one bit of P. -/
def getFlag (p : Byte) (f : Flag) : Bool := p.getLsbD f.bit

/-- Writes one bit of P and leaves the others. -/
def putFlag (f : Flag) (b : Bool) (p : Byte) : Byte :=
  if b then p ||| (1#8 <<< f.bit) else p &&& ~~~(1#8 <<< f.bit)

/-- `SetNZ(w, v)` (00_scope.md R13). -/
def putNZ (w : Width) (v : Word) (p : Byte) : Byte :=
  putFlag .z (w.trunc v == 0) (putFlag .n (w.msb v) p)

/-- The byte PHP, BRK and COP push: in emulation mode bits 5 and 4 are 1 (46_stack.md R344). -/
def pushedP (e : Bool) (p : Byte) : Byte := if e then p ||| 0x30 else p

/-- The byte `WriteP` stores: in emulation mode bits 5 and 4 stay 1 (47_status_system.md R370). -/
def writtenP (e : Bool) (v : Byte) : Byte := if e then v ||| 0x30 else v

/-! ### Results with their flags -/

/-- The result of a computation and the P after it. -/
structure AluOut where
  value : Word
  p     : Byte
deriving DecidableEq, Repr

/-- The result of an addition with the two flags it decides. -/
structure SumOut where
  value    : Word
  overflow : Bool
  carry    : Bool
deriving DecidableEq, Repr

/-- Decimal digit `j` of a number, in its place: `v & (0xF * 16^j)` (R260). -/
def digitInPlace (v j : Nat) : Nat := (v / 16 ^ j % 16) * 16 ^ j

/-- `msb_w` of an integer in two's complement (00_scope.md R8). -/
def intMsb (w : Width) (r : Int) : Bool := r / 2 ^ (w.bits - 1) % 2 == 1

/-- `msb_w(~(a ^ b) & (a ^ r))` (R260, R261): the inputs have one sign and the result the other. -/
def signedOverflow (w : Width) (a b : Word) (r : Int) : Bool :=
  (w.msb a == w.msb b) && (w.msb a != intMsb w r)

/-- The sum of the digits up to `j`: `(a & (0xF * 16^j)) + (b & (0xF * 16^j)) + cy * 16^j +
(r & (16^j - 1))`, where `r & (16^j - 1)` takes the two's-complement low bits (R260, R261). -/
def digitSum (a b : Nat) (r : Int) (j : Nat) : Int :=
  let cy : Int := if r > 16 ^ j - 1 then 1 else 0
  digitInPlace a j + digitInPlace b j + cy * 16 ^ j + r % 16 ^ j

/-- One turn of ADC's decimal loop, `j` from 1 (R260). -/
def adcDigit (a b : Nat) (r : Int) (j : Nat) : Int :=
  digitSum a b (if r > 10 * 16 ^ (j - 1) - 1 then r + 6 * 16 ^ (j - 1) else r) j

/-- One turn of SBC's decimal loop, `j` from 1, `b` the ones' complement of the operand (R261). -/
def sbcDigit (a b : Nat) (r : Int) (j : Nat) : Int :=
  digitSum a b (if r ≤ 16 ^ j - 1 then r - 6 * 16 ^ (j - 1) else r) j

/-- The decimal loop: the lowest digits and the carry, then the turns `j = 1 .. n - 1`. -/
def digitSerial (turn : Nat → Nat → Int → Nat → Int) (n a b carry : Nat) : Int :=
  (List.range' 1 (n - 1)).foldl (turn a b) (digitInPlace a 0 + digitInPlace b 0 + carry)

/-- ADC's sum of two operands of width `w`, binary or decimal (43_arith_logic.md R260). -/
def adcSum (w : Width) (decimal : Bool) (a b : Word) (carry : Bool) : SumOut :=
  let n := w.digits
  let r : Int :=
    if decimal then digitSerial adcDigit n a.toNat b.toNat carry.toNat
    else a.toNat + b.toNat + carry.toNat
  let adjusted : Int :=
    if decimal ∧ r > 10 * 16 ^ (n - 1) - 1 then r + 6 * 16 ^ (n - 1) else r
  { value    := BitVec.ofInt 16 (adjusted % 2 ^ w.bits)
    overflow := signedOverflow w a b r
    carry    := decide (adjusted > 2 ^ w.bits - 1) }

/-- SBC's sum, `b` the ones' complement of the operand at width `w` (43_arith_logic.md R261). -/
def sbcSum (w : Width) (decimal : Bool) (a b : Word) (carry : Bool) : SumOut :=
  let n := w.digits
  let r : Int :=
    if decimal then digitSerial sbcDigit n a.toNat b.toNat carry.toNat
    else a.toNat + b.toNat + carry.toNat
  let adjusted : Int :=
    if decimal ∧ r ≤ 2 ^ w.bits - 1 then r - 6 * 16 ^ (n - 1) else r
  { value    := BitVec.ofInt 16 (adjusted % 2 ^ w.bits)
    overflow := signedOverflow w a b r
    carry    := decide (adjusted > 2 ^ w.bits - 1) }

/-- The flags V, C, N and Z of a sum (R260, R261). -/
def sumOut (w : Width) (r : SumOut) (p : Byte) : AluOut :=
  { value := r.value
    p     := putNZ w r.value (putFlag .c r.carry (putFlag .v r.overflow p)) }

/-- ADC (R260). -/
def adcOp (w : Width) (a b : Word) (p : Byte) : AluOut :=
  sumOut w (adcSum w (getFlag p .d) a b (getFlag p .c)) p

/-- SBC (R261). -/
def sbcOp (w : Width) (a b : Word) (p : Byte) : AluOut :=
  sumOut w (sbcSum w (getFlag p .d) a (b ^^^ w.mask) (getFlag p .c)) p

/-- CMP, CPX and CPY: `a + (b ^ mask(w)) + 1`, always binary; only P changes (R262 to R264). -/
def compareP (w : Width) (a b : Word) (p : Byte) : Byte :=
  let r : Nat := a.toNat + (b ^^^ w.mask).toNat + 1
  putNZ w (BitVec.ofNat 16 r) (putFlag .c (decide (r > w.mask.toNat)) p)

/-- A result whose only flags are N and Z. -/
def nzOut (w : Width) (v : Word) (p : Byte) : AluOut := { value := v, p := putNZ w v p }

/-- AND (R265). -/
def andOp (w : Width) (a b : Word) (p : Byte) : AluOut := nzOut w (a &&& b) p

/-- ORA (R266). -/
def oraOp (w : Width) (a b : Word) (p : Byte) : AluOut := nzOut w (a ||| b) p

/-- EOR (R267). -/
def eorOp (w : Width) (a b : Word) (p : Byte) : AluOut := nzOut w (a ^^^ b) p

/-- `P.Z <- ((a & b) = 0)` (R268 to R270). -/
def putTestZ (a b : Word) (p : Byte) : Byte := putFlag .z (a &&& b == 0) p

/-- BIT on a memory operand: Z, N and V (R268). -/
def bitP (w : Width) (a b : Word) (p : Byte) : Byte :=
  putFlag .v (w.secondMsb b) (putFlag .n (w.msb b) (putTestZ a b p))

/-- TSB on the memory value `v` with the accumulator `a` (R269). -/
def tsbOp (a v : Word) (p : Byte) : AluOut := { value := v ||| a, p := putTestZ a v p }

/-- TRB on the memory value `v` with the accumulator `a` (R270). -/
def trbOp (w : Width) (a v : Word) (p : Byte) : AluOut :=
  { value := v &&& (a ^^^ w.mask), p := putTestZ a v p }

/-- INC (R271). -/
def incOp (w : Width) (v : Word) (p : Byte) : AluOut := nzOut w (w.trunc (v + 1)) p

/-- DEC (R272). -/
def decOp (w : Width) (v : Word) (p : Byte) : AluOut := nzOut w (w.trunc (v - 1)) p

/-- ASL (44_shift_rotate.md R300). -/
def aslOp (w : Width) (v : Word) (p : Byte) : AluOut :=
  nzOut w (w.trunc (v <<< 1)) (putFlag .c (w.msb v) p)

/-- LSR (R301). -/
def lsrOp (w : Width) (v : Word) (p : Byte) : AluOut :=
  nzOut w (v >>> 1) (putFlag .c (v.getLsbD 0) p)

/-- The carry as the bit a rotate brings in at place `k`. -/
def carryAt (p : Byte) (k : Nat) : Word := if getFlag p .c then 1#16 <<< k else 0

/-- ROL (R302). -/
def rolOp (w : Width) (v : Word) (p : Byte) : AluOut :=
  nzOut w (w.trunc (v <<< 1 ||| carryAt p 0)) (putFlag .c (w.msb v) p)

/-- ROR (R303). -/
def rorOp (w : Width) (v : Word) (p : Byte) : AluOut :=
  nzOut w (v >>> 1 ||| carryAt p (w.bits - 1)) (putFlag .c (v.getLsbD 0) p)

end Sys2Proof.Machine
end

