-- ==== Sys2Proof/Machine/Ops.lean ====
section
/-! DEFINITION. The named operations on the state that every instruction is written with: registers
and flags by width, the program address and the cycle counter, byte accesses, the stack, the cycle
cost, the software-interrupt entry, the return from it, and reset. -/

namespace Sys2Proof.Machine

/-- A value read, and the state after the read. -/
structure Got (α : Type) where
  val : α
  st  : State

namespace State

/-! ### Flags and widths -/

/-- One bit of P. -/
def flag (s : State) (f : Flag) : Bool := getFlag s.p f

/-- `accumulatorIs8BitWide()` (10_state.md R31, 40_core_loop.md R162). -/
def accIs8 (s : State) : Bool := s.e || s.flag .m

/-- `indexIs8BitWide()` (10_state.md R31, 40_core_loop.md R162). -/
def indexIs8 (s : State) : Bool := s.e || s.flag .x

/-- `wm` (00_scope.md R10). -/
def wm (s : State) : Width := Width.ofNarrow s.accIs8

/-- `wx` (00_scope.md R10). -/
def wx (s : State) : Width := Width.ofNarrow s.indexIs8

/-- The state with one bit of P written. -/
def setFlag (s : State) (f : Flag) (b : Bool) : State := { s with p := putFlag f b s.p }

/-- `SetNZ(w, v)` (00_scope.md R13). -/
def setNZ (s : State) (w : Width) (v : Word) : State := { s with p := putNZ w v s.p }

/-! ### Registers by width -/

/-- `Xe`, `indexWithXRegister()` (40_core_loop.md R163). -/
def xe (s : State) : Word := s.wx.trunc s.x

/-- `Ye`, `indexWithYRegister()` (40_core_loop.md R163). -/
def ye (s : State) : Word := s.wx.trunc s.y

/-- The accumulator's low byte A (10_state.md R21). -/
def a (s : State) : Byte := lowByte s.c

/-- The accumulator's high byte B (10_state.md R21). -/
def b (s : State) : Byte := highByte s.c

/-- `Acc(w)`: A or C (00_scope.md R10). -/
def acc (s : State) (w : Width) : Word := w.trunc s.c

/-- The accumulator after `SetAcc(w, v)`: B stays when the width is 8 (00_scope.md R10). -/
def accWith (s : State) (w : Width) (v : Word) : Word :=
  match w with
  | .w8  => joinBytes (highByte s.c) (lowByte v)
  | .w16 => v

/-- `SetAcc(w, v)` (00_scope.md R10). -/
def setAcc (s : State) (w : Width) (v : Word) : State := { s with c := s.accWith w v }

/-- `X <- v at w` (41_addressing.md R216). -/
def setX (s : State) (w : Width) (v : Word) : State := { s with x := w.trunc v }

/-- `Y <- v at w` (41_addressing.md R216). -/
def setY (s : State) (w : Width) (v : Word) : State := { s with y := w.trunc v }

/-- `WriteP(v)`: the one way an instruction writes P as a byte; narrowing the index clears XH and YH
(47_status_system.md R370). -/
def writeP (s : State) (v : Byte) : State :=
  let p := writtenP s.e v
  let w := if getFlag p .x then Width.w8 else Width.w16
  { s with p := p, x := w.trunc s.x, y := w.trunc s.y }

/-! ### Program address and cycle counter -/

/-- The program address `PBR:PC` (10_state.md R27). -/
def programAddress (s : State) : Address := mkAddress s.pbr s.pc

/-- `setProgramAddress` (40_core_loop.md R164). -/
def setProgramAddress (s : State) (bank : Byte) (offset : Word) : State :=
  { s with pbr := bank, pc := offset }

/-- `addToProgramAddress(n)`: the offset wraps and the bank stays (40_core_loop.md R165). -/
def addToProgramAddress (s : State) (n : Nat) : State := { s with pc := s.pc + BitVec.ofNat 16 n }

/-- `addToCycles(n)` (40_core_loop.md R166). -/
def addToCycles (s : State) (n : Nat) : State := { s with cycles := s.cycles + n }

/-- `subtractFromCycles(n)` (40_core_loop.md R166). -/
def subtractFromCycles (s : State) (n : Nat) : State := { s with cycles := s.cycles - n }

/-- `addToProgramAddressAndCycles(bytes, cycles)` (40_core_loop.md R167). -/
def addToProgramAddressAndCycles (s : State) (bytes cyc : Nat) : State :=
  (s.addToCycles cyc).addToProgramAddress bytes

/-- `finish(len, cyc)`, the closing call of an instruction that falls through (00_scope.md R12). -/
def finish (s : State) (len cyc : Nat) : State := s.addToProgramAddressAndCycles len cyc

/-! ### Byte accesses -/

/-- The state with the bus replaced: what an access leaves behind. -/
def withBus (s : State) (b : Bus) : State := { s with bus := b }

/-- `MemRead8` (00_scope.md R11). -/
def read8 (s : State) (a : Address) : Got Byte :=
  { val := (s.bus.readByte a).val, st := s.withBus (s.bus.readByte a).bus }

/-- `MemWrite8` (00_scope.md R11). -/
def write8 (s : State) (a : Address) (v : Byte) : State := s.withBus (s.bus.storeByte a v)

end State

/-! ### The stack -/

/-- S after a push of one byte: it stays in page 1 in emulation mode (41_addressing.md R208). -/
def stackDown (e : Bool) (sp : Word) : Word :=
  if e then joinBytes 0x01 (lowByte sp - 1) else sp - 1

/-- S after a pull of one byte (41_addressing.md R208). -/
def stackUp (e : Bool) (sp : Word) : Word :=
  if e then joinBytes 0x01 (lowByte sp + 1) else sp + 1

/-- The stack lives in bank 0 (41_addressing.md R208). -/
def stackAddress (sp : Word) : Address := mkAddress 0x00 sp

namespace State

/-- `Push8(v)`: the write, then S (41_addressing.md R208). -/
def push8 (s : State) (v : Byte) : State :=
  { s with bus := s.bus.storeByte (stackAddress s.sp) v, sp := stackDown s.e s.sp }

/-- `Pull8()`: S, then the read (41_addressing.md R208). -/
def pull8 (s : State) : Got Byte :=
  let r := s.bus.readByte (stackAddress (stackUp s.e s.sp))
  { val := r.val, st := { s with bus := r.bus, sp := stackUp s.e s.sp } }

/-- `Push16(v)`: the high byte, then the low byte (41_addressing.md R209). -/
def push16 (s : State) (v : Word) : State := (s.push8 (highByte v)).push8 (lowByte v)

/-- `Pull16()`: the low byte, then the high byte (41_addressing.md R209). -/
def pull16 (s : State) : Got Word :=
  let lo := s.pull8
  let hi := lo.st.pull8
  { val := joinBytes hi.val lo.val, st := hi.st }

/-- `Push24(b, v)` (41_addressing.md R209). -/
def push24 (s : State) (bank : Byte) (v : Word) : State := (s.push8 bank).push16 v

/-- A push at a width: one byte, or two. -/
def pushW (s : State) (w : Width) (v : Word) : State :=
  match w with
  | .w8  => s.push8 (lowByte v)
  | .w16 => s.push16 v

/-- A pull at a width: one byte, or two. -/
def pullW (s : State) (w : Width) : Got Word :=
  match w with
  | .w8  => { val := zeroExtend8 s.pull8.val, st := s.pull8.st }
  | .w16 => s.pull16

end State

/-! ### Cycle cost -/

/-- The numbered cycle notes of 70_reset_and_hazards.md R472; there is no note 7. -/
inductive Note where
  | n1 | n2 | n3 | n4 | n5 | n6 | n8 | n9 | n10
deriving DecidableEq, Repr

/-- What a note adds (R470, R472). -/
def Note.adds (n : Note) (s : State) (crossed taken : Bool) : Nat :=
  match n with
  | .n1  => if s.wm = .w16 then 1 else 0
  | .n2  => if lowByte s.d ≠ 0 then 1 else 0
  | .n3  => if crossed ∨ s.wx = .w16 then 1 else 0
  | .n4  => if s.e then 0 else 1
  | .n5  => if taken then 1 else 0
  | .n6  => if taken ∧ s.e ∧ crossed then 1 else 0
  | .n8  => if s.wm = .w16 then 2 else 0
  | .n9  => 0
  | .n10 => if s.wx = .w16 then 1 else 0

/-- The base cost of a row of the opcode table and its notes (R470, R471). -/
structure Cost where
  base  : Nat
  notes : List Note := []
deriving DecidableEq, Repr

/-- `CycleCost(op, s, crossed, taken)`, `s` the state at the start of the instruction (R470). -/
def cycleCost (k : Cost) (s : State) (crossed taken : Bool) : Nat :=
  k.base + (k.notes.map fun n => n.adds s crossed taken).sum

/-- The cost of an instruction that has no index to cross a page and no branch to take (R470). -/
def plainCost (k : Cost) (s : State) : Nat := cycleCost k s false false

/-! ### Software interrupts, return and reset -/

namespace State

/-- What the entry saves: PBR in native mode only, then the return address past the signature byte,
then P (60_exceptions.md R410). -/
def pushInterruptFrame (s : State) : State :=
  let banked := if s.e then s else s.push8 s.pbr
  (banked.push16 (s.pc + 2)).push8 (pushedP s.e s.p)

/-- `InterruptEntry(vector)` (60_exceptions.md R410): the frame, then I set and D cleared, then the
handler in bank 0. -/
def interruptEntry (s : State) (vector : Word) (k : Cost) : State :=
  let saved := s.pushInterruptFrame
  ({ saved with p := putFlag .d false (putFlag .i true saved.p) }.setProgramAddress 0x00 vector).addToCycles
    (plainCost k s)

/-- The vector BRK enters through (47_status_system.md R381, 60_exceptions.md R411). -/
def brkVector (s : State) : Word := if s.e then s.cfg.vecE.irqbrk else s.cfg.vecN.brk

/-- The vector COP enters through (47_status_system.md R382, 60_exceptions.md R411). -/
def copVector (s : State) : Word := if s.e then s.cfg.vecE.cop else s.cfg.vecN.cop

/-- The bank RTI returns to: pulled in native mode, kept in emulation mode (R383). -/
def pullReturnBank (s : State) : Got Byte :=
  if s.e then { val := s.pbr, st := s } else s.pull8

/-- RTI's effect: P through `WriteP`, then PC, then PBR in native mode; E is not restored
(47_status_system.md R383, 60_exceptions.md R413). -/
def interruptReturn (s : State) (k : Cost) : State :=
  let p := s.pull8
  let t := (p.st.writeP p.val).pull16
  let bk := t.st.pullReturnBank
  (bk.st.setProgramAddress bk.val t.val).addToCycles (plainCost k s)

/-- `reset()` (40_core_loop.md R160): exactly the writes of 10_state.md R51; no bus access, no
cycles, neither pin. -/
def performReset (s : State) : State :=
  { s with
    e   := true
    p   := putFlag .x true (putFlag .m true s.p)
    x   := Width.w8.trunc s.x
    y   := Width.w8.trunc s.y
    d   := 0
    sp  := s.cfg.stackReset
    pbr := 0x00
    pc  := s.cfg.vecE.reset
    run := .running }

end State

end Sys2Proof.Machine
end

