-- ==== Sys2Proof/Machine/Operands.lean ====
section
/-! DEFINITION. Locations, addressing modes and operand access (41_addressing.md). -/

namespace Sys2Proof.Machine

/-! ### Locations -/

/-- The four kinds of location (41_addressing.md R180). -/
inductive Loc where
  /-- `Lin(a)`: carries into the next bank. -/
  | lin (a : Address)
  /-- `Bank0(o)`: wraps in bank 0. -/
  | bank0 (o : Word)
  /-- `Page(h, l)`: wraps in one page of bank 0. -/
  | page (h l : Byte)
  /-- `Prog(o)`: wraps in the program bank. -/
  | prog (bank : Byte) (o : Word)
deriving DecidableEq, Repr

/-- The bus address of byte `k` of the operand at a location (R180). -/
def Loc.addr (l : Loc) (k : Nat) : Address :=
  match l with
  | .lin a      => a + BitVec.ofNat 24 k
  | .bank0 o    => mkAddress 0x00 (o + BitVec.ofNat 16 k)
  | .page h l   => mkAddress 0x00 (joinBytes h (l + BitVec.ofNat 8 k))
  | .prog bk o  => mkAddress bk (o + BitVec.ofNat 16 k)

/-- The addresses of the first `n` bytes of a location. -/
def Loc.span (l : Loc) (n : Nat) : List Address := (List.range n).map l.addr

/-- `MemRead(loc, 1)`. -/
def Bus.read1 (b : Bus) (l : Loc) : BusRead Byte := b.readByte (l.addr 0)

/-- `MemRead(loc, 2)`: low first (R182). -/
def Bus.read2 (b : Bus) (l : Loc) : BusRead Word :=
  let lo := b.readByte (l.addr 0)
  let hi := lo.bus.readByte (l.addr 1)
  { val := joinBytes hi.val lo.val, bus := hi.bus }

/-- `MemRead(loc, 3)`: low first (R182); offset low, offset high, bank. -/
def Bus.read3 (b : Bus) (l : Loc) : BusRead Address :=
  let lo := b.readByte (l.addr 0)
  let hi := lo.bus.readByte (l.addr 1)
  let bk := hi.bus.readByte (l.addr 2)
  { val := mkAddress bk.val (joinBytes hi.val lo.val), bus := bk.bus }

/-- `MemRead(loc, w/8)` (R182). -/
def Bus.readW (b : Bus) (w : Width) (l : Loc) : BusRead Word :=
  match w with
  | .w8  => { val := zeroExtend8 (b.read1 l).val, bus := (b.read1 l).bus }
  | .w16 => b.read2 l

/-- `MemWrite(loc, w/8, v)`: low first (R182). -/
def Bus.writeW (b : Bus) (w : Width) (l : Loc) (v : Word) : Bus :=
  match w with
  | .w8  => b.storeByte (l.addr 0) (lowByte v)
  | .w16 => (b.storeByte (l.addr 0) (lowByte v)).storeByte (l.addr 1) (highByte v)

/-- `MemWriteHL(loc, w/8, v)`: high first, the write of a read-modify-write (R182, R211). -/
def Bus.writeHL (b : Bus) (w : Width) (l : Loc) (v : Word) : Bus :=
  match w with
  | .w8  => b.storeByte (l.addr 0) (lowByte v)
  | .w16 => (b.storeByte (l.addr 1) (highByte v)).storeByte (l.addr 0) (lowByte v)

/-- `DPLoc(off, legacy)` (R183). -/
def State.dpLoc (s : State) (off : Nat) (legacy : Bool) : Loc :=
  if legacy ∧ s.e ∧ lowByte s.d = 0 then .page (highByte s.d) (BitVec.ofNat 8 off)
  else .bank0 (s.d + BitVec.ofNat 16 off)

/-- The page-cross predicate (R210). -/
def crosses (base index : Word) : Bool :=
  (base.toNat + index.toNat) / 256 != base.toNat / 256

/-! ### Addressing modes -/

/-- The addressing modes that name a data location in memory (R185 to R199). -/
inductive MemMode where
  | dp (d : Byte)
  | dpx (d : Byte)
  | dpy (d : Byte)
  | idp (d : Byte)
  | idpx (d : Byte)
  | idpy (d : Byte)
  | ildp (d : Byte)
  | ildpy (d : Byte)
  | abs (a : Word)
  | absx (a : Word)
  | absy (a : Word)
  | long (a : Address)
  | longx (a : Address)
  | sr (o : Byte)
  | isry (o : Byte)
deriving DecidableEq, Repr

/-- A data operand: an immediate, whose bytes were fetched with the instruction (R184, R213), or a
location in memory. -/
inductive Operand where
  | imm (v : Word)
  | mem (m : MemMode)
deriving DecidableEq, Repr

/-- The length of an instruction with this mode (30_encoding.md R121). -/
def MemMode.len (m : MemMode) : Nat :=
  match m with
  | .dp _ | .dpx _ | .dpy _ | .idp _ | .idpx _ | .idpy _ | .ildp _ | .ildpy _ | .sr _ | .isry _ => 2
  | .abs _ | .absx _ | .absy _ => 3
  | .long _ | .longx _ => 4

/-- The length of an instruction with this operand; an immediate has the operand's width
(30_encoding.md R121, R124). -/
def Operand.len (o : Operand) (w : Width) : Nat :=
  match o with
  | .imm _ => 1 + w.bytes
  | .mem m => m.len

/-- `EA` and `crossed` of a mode, and the bus after its pointer reads (R184 to R199). -/
structure Effective where
  loc     : Loc
  crossed : Bool
  bus     : Bus
deriving DecidableEq, Repr

/-- A mode with no pointer read and no page-cross bit. -/
def State.plain (s : State) (l : Loc) : Effective := { loc := l, crossed := false, bus := s.bus }

/-- `DBR:offset` as a 24-bit number (R188 to R199). -/
def State.dataAddress (s : State) (offset : Word) : Address := mkAddress s.dbr offset

/-- The location of a mode's data (R185 to R199). DEDUCED (log entry 12): the stack-relative modes do not
wrap in page 1 in emulation mode. -/
def State.effective (s : State) (m : MemMode) : Effective :=
  match m with
  | .dp d   => s.plain (s.dpLoc d.toNat true)
  | .dpx d  => s.plain (s.dpLoc (d.toNat + s.xe.toNat) true)
  | .dpy d  => s.plain (s.dpLoc (d.toNat + s.ye.toNat) true)
  | .idp d  =>
    let p := s.bus.read2 (s.dpLoc d.toNat true)
    { loc := .lin (s.dataAddress p.val), crossed := false, bus := p.bus }
  | .idpx d =>
    let p := s.bus.read2 (s.dpLoc (d.toNat + s.xe.toNat) true)
    { loc := .lin (s.dataAddress p.val), crossed := false, bus := p.bus }
  | .idpy d =>
    let p := s.bus.read2 (s.dpLoc d.toNat true)
    { loc := .lin (s.dataAddress p.val + zeroExtend16 s.ye), crossed := crosses p.val s.ye, bus := p.bus }
  | .ildp d =>
    let p := s.bus.read3 (s.dpLoc d.toNat false)
    { loc := .lin p.val, crossed := false, bus := p.bus }
  | .ildpy d =>
    let p := s.bus.read3 (s.dpLoc d.toNat false)
    { loc := .lin (p.val + zeroExtend16 s.ye), crossed := false, bus := p.bus }
  | .abs a   => s.plain (.lin (s.dataAddress a))
  | .absx a  =>
    { loc := .lin (s.dataAddress a + zeroExtend16 s.xe), crossed := crosses a s.xe, bus := s.bus }
  | .absy a  =>
    { loc := .lin (s.dataAddress a + zeroExtend16 s.ye), crossed := crosses a s.ye, bus := s.bus }
  | .long a  => s.plain (.lin a)
  | .longx a => s.plain (.lin (a + zeroExtend16 s.xe))
  | .sr o    => s.plain (.bank0 (s.sp + zeroExtend8 o))
  | .isry o  =>
    let p := s.bus.read2 (.bank0 (s.sp + zeroExtend8 o))
    { loc := .lin (s.dataAddress p.val + zeroExtend16 s.ye), crossed := false, bus := p.bus }

/-! ### Operand access -/

/-- A data operand as read: its value, the page-cross bit, and the bus after all its reads. -/
structure Loaded where
  value   : Word
  crossed : Bool
  bus     : Bus
deriving DecidableEq, Repr

/-- `Load(w)` (R213): an immediate is the operand bytes already fetched, with no further access. -/
def State.load (s : State) (w : Width) (o : Operand) : Loaded :=
  match o with
  | .imm v => { value := w.trunc v, crossed := false, bus := s.bus }
  | .mem m =>
    let ea := s.effective m
    let r := ea.bus.readW w ea.loc
    { value := r.val, crossed := ea.crossed, bus := r.bus }

/-! ### The patterns the instruction families share -/

/-- An accumulator instruction of width `wm`: the operand, the computation, the result to the
accumulator and P. -/
def accumulate (f : Width → Word → Word → Byte → AluOut) (o : Operand) (k : Cost) (s : State) : State :=
  let w := s.wm
  let r := s.load w o
  let out := f w (s.acc w) r.value s.p
  { s with bus := r.bus, c := s.accWith w out.value, p := out.p }.finish (o.len w)
    (cycleCost k s r.crossed false)

/-- An instruction of a given width that only sets P from a register value and the operand. -/
def testOperand (f : Width → Word → Word → Byte → Byte) (w : Width) (reg : Word) (o : Operand) (k : Cost)
    (s : State) : State :=
  let r := s.load w o
  { s with bus := r.bus, p := f w reg r.value s.p }.finish (o.len w) (cycleCost k s r.crossed false)

/-- `Store(w, v)` (R213) and the end of the instruction. -/
def storeValue (w : Width) (v : Word) (m : MemMode) (k : Cost) (s : State) : State :=
  let ea := s.effective m
  (s.withBus (ea.bus.writeW w ea.loc v)).finish m.len (cycleCost k s ea.crossed false)

/-- `RMW(EA, f)` at width `wm`: read low first, write high first (R211). -/
def modifyMemory (f : Width → Word → Byte → AluOut) (m : MemMode) (k : Cost) (s : State) : State :=
  let w := s.wm
  let ea := s.effective m
  let r := ea.bus.readW w ea.loc
  let out := f w r.val s.p
  { s with bus := r.bus.writeHL w ea.loc out.value, p := out.p }.finish m.len (cycleCost k s ea.crossed false)

/-- The accumulator form of a shift or increment (R215). -/
def modifyAccumulator (f : Width → Word → Byte → AluOut) (k : Cost) (s : State) : State :=
  let w := s.wm
  let out := f w (s.acc w) s.p
  { s with c := s.accWith w out.value, p := out.p }.finish 1 (plainCost k s)

end Sys2Proof.Machine
end

