-- ==== Sys2Proof/Machine/Arith.lean ====
section
/-! DEFINITION. Addition, subtraction and compare (43_arith_logic.md R260 to R264). -/

namespace Sys2Proof.Machine

/-- ADC (R260). -/
def adc (o : Operand) (k : Cost) (s : State) : State := accumulate adcOp o k s

/-- SBC (R261). -/
def sbc (o : Operand) (k : Cost) (s : State) : State := accumulate sbcOp o k s

/-- CMP (R262). -/
def cmp (o : Operand) (k : Cost) (s : State) : State := testOperand compareP s.wm (s.acc s.wm) o k s

/-- CPX (R263). -/
def cpx (o : Operand) (k : Cost) (s : State) : State := testOperand compareP s.wx s.xe o k s

/-- CPY (R264). -/
def cpy (o : Operand) (k : Cost) (s : State) : State := testOperand compareP s.wx s.ye o k s

/-! ### ADC (R260) -/

/-- 0x61 `ADC ($nn,X)`. -/
def execAdcIdpx (d : Byte) (s : State) : Result :=
  .next (adc (.mem (.idpx d)) ⟨6, [.n1, .n2]⟩ s)

/-- 0x63 `ADC $nn,S`. -/
def execAdcSr (o : Byte) (s : State) : Result :=
  .next (adc (.mem (.sr o)) ⟨4, [.n1]⟩ s)

/-- 0x65 `ADC $nn`. -/
def execAdcDp (d : Byte) (s : State) : Result :=
  .next (adc (.mem (.dp d)) ⟨3, [.n1, .n2]⟩ s)

/-- 0x67 `ADC [$nn]`. -/
def execAdcIldp (d : Byte) (s : State) : Result :=
  .next (adc (.mem (.ildp d)) ⟨6, [.n1, .n2]⟩ s)

/-- 0x69 `ADC #$nn or #$nnnn`. -/
def execAdcImm (v : Word) (s : State) : Result :=
  .next (adc (.imm v) ⟨2, [.n1]⟩ s)

/-- 0x6D `ADC $nnnn`. -/
def execAdcAbs (a : Word) (s : State) : Result :=
  .next (adc (.mem (.abs a)) ⟨4, [.n1]⟩ s)

/-- 0x6F `ADC $nnnnnn`. -/
def execAdcLong (a : Address) (s : State) : Result :=
  .next (adc (.mem (.long a)) ⟨5, [.n1]⟩ s)

/-- 0x71 `ADC ($nn),Y`. -/
def execAdcIdpy (d : Byte) (s : State) : Result :=
  .next (adc (.mem (.idpy d)) ⟨5, [.n1, .n2, .n3]⟩ s)

/-- 0x72 `ADC ($nn)`. -/
def execAdcIdp (d : Byte) (s : State) : Result :=
  .next (adc (.mem (.idp d)) ⟨5, [.n1, .n2]⟩ s)

/-- 0x73 `ADC ($nn,S),Y`. -/
def execAdcIsry (o : Byte) (s : State) : Result :=
  .next (adc (.mem (.isry o)) ⟨7, [.n1]⟩ s)

/-- 0x75 `ADC $nn,X`. -/
def execAdcDpx (d : Byte) (s : State) : Result :=
  .next (adc (.mem (.dpx d)) ⟨4, [.n1, .n2]⟩ s)

/-- 0x77 `ADC [$nn],Y`. -/
def execAdcIldpy (d : Byte) (s : State) : Result :=
  .next (adc (.mem (.ildpy d)) ⟨6, [.n1, .n2]⟩ s)

/-- 0x79 `ADC $nnnn,Y`. -/
def execAdcAbsy (a : Word) (s : State) : Result :=
  .next (adc (.mem (.absy a)) ⟨4, [.n1, .n3]⟩ s)

/-- 0x7D `ADC $nnnn,X`. -/
def execAdcAbsx (a : Word) (s : State) : Result :=
  .next (adc (.mem (.absx a)) ⟨4, [.n1, .n3]⟩ s)

/-- 0x7F `ADC $nnnnnn,X`. -/
def execAdcLongx (a : Address) (s : State) : Result :=
  .next (adc (.mem (.longx a)) ⟨5, [.n1]⟩ s)

/-! ### SBC (R261) -/

/-- 0xE1 `SBC ($nn,X)`. -/
def execSbcIdpx (d : Byte) (s : State) : Result :=
  .next (sbc (.mem (.idpx d)) ⟨6, [.n1, .n2]⟩ s)

/-- 0xE3 `SBC $nn,S`. -/
def execSbcSr (o : Byte) (s : State) : Result :=
  .next (sbc (.mem (.sr o)) ⟨4, [.n1]⟩ s)

/-- 0xE5 `SBC $nn`. -/
def execSbcDp (d : Byte) (s : State) : Result :=
  .next (sbc (.mem (.dp d)) ⟨3, [.n1, .n2]⟩ s)

/-- 0xE7 `SBC [$nn]`. -/
def execSbcIldp (d : Byte) (s : State) : Result :=
  .next (sbc (.mem (.ildp d)) ⟨6, [.n1, .n2]⟩ s)

/-- 0xE9 `SBC #$nn or #$nnnn`. -/
def execSbcImm (v : Word) (s : State) : Result :=
  .next (sbc (.imm v) ⟨2, [.n1]⟩ s)

/-- 0xED `SBC $nnnn`. -/
def execSbcAbs (a : Word) (s : State) : Result :=
  .next (sbc (.mem (.abs a)) ⟨4, [.n1]⟩ s)

/-- 0xEF `SBC $nnnnnn`. -/
def execSbcLong (a : Address) (s : State) : Result :=
  .next (sbc (.mem (.long a)) ⟨5, [.n1]⟩ s)

/-- 0xF1 `SBC ($nn),Y`. -/
def execSbcIdpy (d : Byte) (s : State) : Result :=
  .next (sbc (.mem (.idpy d)) ⟨5, [.n1, .n2, .n3]⟩ s)

/-- 0xF2 `SBC ($nn)`. -/
def execSbcIdp (d : Byte) (s : State) : Result :=
  .next (sbc (.mem (.idp d)) ⟨5, [.n1, .n2]⟩ s)

/-- 0xF3 `SBC ($nn,S),Y`. -/
def execSbcIsry (o : Byte) (s : State) : Result :=
  .next (sbc (.mem (.isry o)) ⟨7, [.n1]⟩ s)

/-- 0xF5 `SBC $nn,X`. -/
def execSbcDpx (d : Byte) (s : State) : Result :=
  .next (sbc (.mem (.dpx d)) ⟨4, [.n1, .n2]⟩ s)

/-- 0xF7 `SBC [$nn],Y`. -/
def execSbcIldpy (d : Byte) (s : State) : Result :=
  .next (sbc (.mem (.ildpy d)) ⟨6, [.n1, .n2]⟩ s)

/-- 0xF9 `SBC $nnnn,Y`. -/
def execSbcAbsy (a : Word) (s : State) : Result :=
  .next (sbc (.mem (.absy a)) ⟨4, [.n1, .n3]⟩ s)

/-- 0xFD `SBC $nnnn,X`. -/
def execSbcAbsx (a : Word) (s : State) : Result :=
  .next (sbc (.mem (.absx a)) ⟨4, [.n1, .n3]⟩ s)

/-- 0xFF `SBC $nnnnnn,X`. -/
def execSbcLongx (a : Address) (s : State) : Result :=
  .next (sbc (.mem (.longx a)) ⟨5, [.n1]⟩ s)

/-! ### CMP (R262) -/

/-- 0xC1 `CMP ($nn,X)`. -/
def execCmpIdpx (d : Byte) (s : State) : Result :=
  .next (cmp (.mem (.idpx d)) ⟨6, [.n1, .n2]⟩ s)

/-- 0xC3 `CMP $nn,S`. -/
def execCmpSr (o : Byte) (s : State) : Result :=
  .next (cmp (.mem (.sr o)) ⟨4, [.n1]⟩ s)

/-- 0xC5 `CMP $nn`. -/
def execCmpDp (d : Byte) (s : State) : Result :=
  .next (cmp (.mem (.dp d)) ⟨3, [.n1, .n2]⟩ s)

/-- 0xC7 `CMP [$nn]`. -/
def execCmpIldp (d : Byte) (s : State) : Result :=
  .next (cmp (.mem (.ildp d)) ⟨6, [.n1, .n2]⟩ s)

/-- 0xC9 `CMP #$nn or #$nnnn`. -/
def execCmpImm (v : Word) (s : State) : Result :=
  .next (cmp (.imm v) ⟨2, [.n1]⟩ s)

/-- 0xCD `CMP $nnnn`. -/
def execCmpAbs (a : Word) (s : State) : Result :=
  .next (cmp (.mem (.abs a)) ⟨4, [.n1]⟩ s)

/-- 0xCF `CMP $nnnnnn`. -/
def execCmpLong (a : Address) (s : State) : Result :=
  .next (cmp (.mem (.long a)) ⟨5, [.n1]⟩ s)

/-- 0xD1 `CMP ($nn),Y`. -/
def execCmpIdpy (d : Byte) (s : State) : Result :=
  .next (cmp (.mem (.idpy d)) ⟨5, [.n1, .n2, .n3]⟩ s)

/-- 0xD2 `CMP ($nn)`. -/
def execCmpIdp (d : Byte) (s : State) : Result :=
  .next (cmp (.mem (.idp d)) ⟨5, [.n1, .n2]⟩ s)

/-- 0xD3 `CMP ($nn,S),Y`. -/
def execCmpIsry (o : Byte) (s : State) : Result :=
  .next (cmp (.mem (.isry o)) ⟨7, [.n1]⟩ s)

/-- 0xD5 `CMP $nn,X`. -/
def execCmpDpx (d : Byte) (s : State) : Result :=
  .next (cmp (.mem (.dpx d)) ⟨4, [.n1, .n2]⟩ s)

/-- 0xD7 `CMP [$nn],Y`. -/
def execCmpIldpy (d : Byte) (s : State) : Result :=
  .next (cmp (.mem (.ildpy d)) ⟨6, [.n1, .n2]⟩ s)

/-- 0xD9 `CMP $nnnn,Y`. -/
def execCmpAbsy (a : Word) (s : State) : Result :=
  .next (cmp (.mem (.absy a)) ⟨4, [.n1, .n3]⟩ s)

/-- 0xDD `CMP $nnnn,X`. -/
def execCmpAbsx (a : Word) (s : State) : Result :=
  .next (cmp (.mem (.absx a)) ⟨4, [.n1, .n3]⟩ s)

/-- 0xDF `CMP $nnnnnn,X`. -/
def execCmpLongx (a : Address) (s : State) : Result :=
  .next (cmp (.mem (.longx a)) ⟨5, [.n1]⟩ s)

/-! ### CPX (R263) -/

/-- 0xE0 `CPX #$nn or #$nnnn`. -/
def execCpxImm (v : Word) (s : State) : Result :=
  .next (cpx (.imm v) ⟨2, [.n10]⟩ s)

/-- 0xE4 `CPX $nn`. -/
def execCpxDp (d : Byte) (s : State) : Result :=
  .next (cpx (.mem (.dp d)) ⟨3, [.n2, .n10]⟩ s)

/-- 0xEC `CPX $nnnn`. -/
def execCpxAbs (a : Word) (s : State) : Result :=
  .next (cpx (.mem (.abs a)) ⟨4, [.n10]⟩ s)

/-! ### CPY (R264) -/

/-- 0xC0 `CPY #$nn or #$nnnn`. -/
def execCpyImm (v : Word) (s : State) : Result :=
  .next (cpy (.imm v) ⟨2, [.n10]⟩ s)

/-- 0xC4 `CPY $nn`. -/
def execCpyDp (d : Byte) (s : State) : Result :=
  .next (cpy (.mem (.dp d)) ⟨3, [.n2, .n10]⟩ s)

/-- 0xCC `CPY $nnnn`. -/
def execCpyAbs (a : Word) (s : State) : Result :=
  .next (cpy (.mem (.abs a)) ⟨4, [.n10]⟩ s)

end Sys2Proof.Machine
end

