-- ==== Sys2Proof/Machine/BlockMove.lean ====
section
/-! DEFINITION. Block moves (42_load_store_transfer.md R240, R241). -/

namespace Sys2Proof.Machine

/-- One call of MVN or MVP moves one byte. The program address stays at the opcode until the count
runs out, so the next step runs the instruction again (R240, R241). -/
def blockMove (next : Word → Word) (dd ss : Byte) (k : Cost) (s : State) : State :=
  let r := s.bus.readByte (mkAddress ss s.xe)
  let count := s.c - 1
  { s with
    dbr := dd
    bus := r.bus.storeByte (mkAddress dd s.ye) r.val
    x   := s.wx.trunc (next s.xe)
    y   := s.wx.trunc (next s.ye)
    c   := count }.finish (if count = 0xFFFF then 3 else 0) (plainCost k s)

/-! ### MVN (R240) -/

/-- 0x54 `MVN $ss,$dd`. -/
def execMvn (dd ss : Byte) (s : State) : Result :=
  .next (blockMove (· + 1) dd ss ⟨7, [.n9]⟩ s)

/-! ### MVP (R241) -/

/-- 0x44 `MVP $ss,$dd`. -/
def execMvp (dd ss : Byte) (s : State) : Result :=
  .next (blockMove (· - 1) dd ss ⟨7, [.n9]⟩ s)

end Sys2Proof.Machine
end

