-- ==== Sys2Proof/Machine/Branch.lean ====
section
/-! DEFINITION. Branches (45_control.md R310 to R320). -/

namespace Sys2Proof.Machine

/-- The branch pattern (R310): the displacement counts from the next instruction and the target
stays in the program bank. -/
def branch (cond : Bool) (r : Byte) (k : Cost) (s : State) : State :=
  let next := s.pc + 2
  let target := next + signExtend8 r
  let crossed := highByte target != highByte next
  { s with pc := if cond then target else next }.addToCycles (cycleCost k s crossed cond)

/-- BRL: always, with a 16-bit displacement (R320). -/
def branchLong (r : Word) (k : Cost) (s : State) : State :=
  (s.setProgramAddress s.pbr (s.pc + 3 + r)).addToCycles (plainCost k s)

/-! ### BCC (R311) -/

/-- 0x90 `BCC label`. -/
def execBcc (r : Byte) (s : State) : Result :=
  .next (branch (!s.flag .c) r ⟨2, [.n5, .n6]⟩ s)

/-! ### BCS (R312) -/

/-- 0xB0 `BCS label`. -/
def execBcs (r : Byte) (s : State) : Result :=
  .next (branch (s.flag .c) r ⟨2, [.n5, .n6]⟩ s)

/-! ### BEQ (R313) -/

/-- 0xF0 `BEQ label`. -/
def execBeq (r : Byte) (s : State) : Result :=
  .next (branch (s.flag .z) r ⟨2, [.n5, .n6]⟩ s)

/-! ### BNE (R314) -/

/-- 0xD0 `BNE label`. -/
def execBne (r : Byte) (s : State) : Result :=
  .next (branch (!s.flag .z) r ⟨2, [.n5, .n6]⟩ s)

/-! ### BMI (R315) -/

/-- 0x30 `BMI label`. -/
def execBmi (r : Byte) (s : State) : Result :=
  .next (branch (s.flag .n) r ⟨2, [.n5, .n6]⟩ s)

/-! ### BPL (R316) -/

/-- 0x10 `BPL label`. -/
def execBpl (r : Byte) (s : State) : Result :=
  .next (branch (!s.flag .n) r ⟨2, [.n5, .n6]⟩ s)

/-! ### BVC (R317) -/

/-- 0x50 `BVC label`. -/
def execBvc (r : Byte) (s : State) : Result :=
  .next (branch (!s.flag .v) r ⟨2, [.n5, .n6]⟩ s)

/-! ### BVS (R318) -/

/-- 0x70 `BVS label`. -/
def execBvs (r : Byte) (s : State) : Result :=
  .next (branch (s.flag .v) r ⟨2, [.n5, .n6]⟩ s)

/-! ### BRA (R319) -/

/-- 0x80 `BRA label`. -/
def execBra (r : Byte) (s : State) : Result :=
  .next (branch true r ⟨3, [.n6]⟩ s)

/-! ### BRL (R320) -/

/-- 0x82 `BRL label`. -/
def execBrl (r : Word) (s : State) : Result :=
  .next (branchLong r ⟨4, []⟩ s)

end Sys2Proof.Machine
end

