-- ==== Sys2Proof/Machine/IncDec.lean ====
section
/-! DEFINITION. Increment and decrement (43_arith_logic.md R271 to R276). -/

namespace Sys2Proof.Machine

/-- X stepped at width `wx`, with N and Z (R273, R275). -/
def stepX (v : Word) (k : Cost) (s : State) : State :=
  ((s.setX s.wx v).setNZ s.wx v).finish 1 (plainCost k s)

/-- Y stepped at width `wx`, with N and Z (R274, R276). -/
def stepY (v : Word) (k : Cost) (s : State) : State :=
  ((s.setY s.wx v).setNZ s.wx v).finish 1 (plainCost k s)

/-! ### INC (R271) -/

/-- 0x1A `INC A`. -/
def execIncAcc (s : State) : Result :=
  .next (modifyAccumulator incOp ⟨2, []⟩ s)

/-- 0xE6 `INC $nn`. -/
def execIncDp (d : Byte) (s : State) : Result :=
  .next (modifyMemory incOp (.dp d) ⟨5, [.n2, .n8]⟩ s)

/-- 0xEE `INC $nnnn`. -/
def execIncAbs (a : Word) (s : State) : Result :=
  .next (modifyMemory incOp (.abs a) ⟨6, [.n8]⟩ s)

/-- 0xF6 `INC $nn,X`. -/
def execIncDpx (d : Byte) (s : State) : Result :=
  .next (modifyMemory incOp (.dpx d) ⟨6, [.n2, .n8]⟩ s)

/-- 0xFE `INC $nnnn,X`. -/
def execIncAbsx (a : Word) (s : State) : Result :=
  .next (modifyMemory incOp (.absx a) ⟨7, [.n8]⟩ s)

/-! ### DEC (R272) -/

/-- 0x3A `DEC A`. -/
def execDecAcc (s : State) : Result :=
  .next (modifyAccumulator decOp ⟨2, []⟩ s)

/-- 0xC6 `DEC $nn`. -/
def execDecDp (d : Byte) (s : State) : Result :=
  .next (modifyMemory decOp (.dp d) ⟨5, [.n2, .n8]⟩ s)

/-- 0xCE `DEC $nnnn`. -/
def execDecAbs (a : Word) (s : State) : Result :=
  .next (modifyMemory decOp (.abs a) ⟨6, [.n8]⟩ s)

/-- 0xD6 `DEC $nn,X`. -/
def execDecDpx (d : Byte) (s : State) : Result :=
  .next (modifyMemory decOp (.dpx d) ⟨6, [.n2, .n8]⟩ s)

/-- 0xDE `DEC $nnnn,X`. -/
def execDecAbsx (a : Word) (s : State) : Result :=
  .next (modifyMemory decOp (.absx a) ⟨7, [.n8]⟩ s)

/-! ### INX (R273) -/

/-- 0xE8 `INX`. -/
def execInx (s : State) : Result :=
  .next (stepX (s.xe + 1) ⟨2, []⟩ s)

/-! ### INY (R274) -/

/-- 0xC8 `INY`. -/
def execIny (s : State) : Result :=
  .next (stepY (s.ye + 1) ⟨2, []⟩ s)

/-! ### DEX (R275) -/

/-- 0xCA `DEX`. -/
def execDex (s : State) : Result :=
  .next (stepX (s.xe - 1) ⟨2, []⟩ s)

/-! ### DEY (R276) -/

/-- 0x88 `DEY`. -/
def execDey (s : State) : Result :=
  .next (stepY (s.ye - 1) ⟨2, []⟩ s)

end Sys2Proof.Machine
end

