-- ==== Sys2Proof/Machine/Jump.lean ====
section
/-! DEFINITION. Jumps, calls and returns (45_control.md R321 to R326). -/

namespace Sys2Proof.Machine

/-- A jump to a known target. -/
def jump (bank : Byte) (target : Word) (k : Cost) (s : State) : State :=
  (s.setProgramAddress bank target).addToCycles (plainCost k s)

/-- A jump within the program bank through a 16-bit pointer (R321). -/
def jumpThrough (l : Loc) (k : Cost) (s : State) : State :=
  let p := s.bus.read2 l
  ((s.withBus p.bus).setProgramAddress s.pbr p.val).addToCycles (plainCost k s)

/-- A jump through a 24-bit pointer (R322). -/
def jumpThroughLong (l : Loc) (k : Cost) (s : State) : State :=
  let p := s.bus.read3 l
  ((s.withBus p.bus).setProgramAddress (bankOf p.val) (offsetOf p.val)).addToCycles (plainCost k s)

/-- The pointer of `(abs,X)`, in the program bank (41_addressing.md R203). -/
def State.indexedPointer (s : State) (a : Word) : Loc := .prog s.pbr (a + s.xe)

/-- JSR to a known target: the address of its last byte is pushed (R323). -/
def callAbs (target : Word) (k : Cost) (s : State) : State :=
  ((s.push16 (s.pc + 2)).setProgramAddress s.pbr target).addToCycles (plainCost k s)

/-- JSR through `(abs,X)`: the push comes before the pointer read (R323). -/
def callThrough (a : Word) (k : Cost) (s : State) : State :=
  let pushed := s.push16 (s.pc + 2)
  let p := pushed.bus.read2 (s.indexedPointer a)
  ((pushed.withBus p.bus).setProgramAddress s.pbr p.val).addToCycles (plainCost k s)

/-- JSL: the program bank, then the address of its last byte (R324). -/
def callLong (a : Address) (k : Cost) (s : State) : State :=
  ((s.push24 s.pbr (s.pc + 3)).setProgramAddress (bankOf a) (offsetOf a)).addToCycles (plainCost k s)

/-- RTS: the pulled address plus one, in the same bank (R325). -/
def returnShort (k : Cost) (s : State) : State :=
  let t := s.pull16
  (t.st.setProgramAddress s.pbr (t.val + 1)).addToCycles (plainCost k s)

/-- RTL: the pulled address plus one, in the pulled bank (R326). -/
def returnLong (k : Cost) (s : State) : State :=
  let t := s.pull16
  let bk := t.st.pull8
  (bk.st.setProgramAddress bk.val (t.val + 1)).addToCycles (plainCost k s)

/-! ### JMP (R321) -/

/-- 0x4C `JMP $nnnn`. -/
def execJmpJabs (a : Word) (s : State) : Result :=
  .next (jump s.pbr a ⟨3, []⟩ s)

/-- 0x6C `JMP ($nnnn)`. -/
def execJmpIabs (a : Word) (s : State) : Result :=
  .next (jumpThrough (.bank0 a) ⟨5, []⟩ s)

/-- 0x7C `JMP ($nnnn,X)`. -/
def execJmpIabsx (a : Word) (s : State) : Result :=
  .next (jumpThrough (s.indexedPointer a) ⟨6, []⟩ s)

/-! ### JML (R322) -/

/-- 0x5C `JML $nnnnnn`. -/
def execJmlJlong (a : Address) (s : State) : Result :=
  .next (jump (bankOf a) (offsetOf a) ⟨4, []⟩ s)

/-- 0xDC `JML [$nnnn]`. -/
def execJmlIlabs (a : Word) (s : State) : Result :=
  .next (jumpThroughLong (.bank0 a) ⟨6, []⟩ s)

/-! ### JSR (R323) -/

/-- 0x20 `JSR $nnnn`. -/
def execJsrJabs (a : Word) (s : State) : Result :=
  .next (callAbs a ⟨6, []⟩ s)

/-- 0xFC `JSR ($nnnn,X)`. -/
def execJsrIabsx (a : Word) (s : State) : Result :=
  .next (callThrough a ⟨8, []⟩ s)

/-! ### JSL (R324) -/

/-- 0x22 `JSL $nnnnnn`. -/
def execJsl (a : Address) (s : State) : Result :=
  .next (callLong a ⟨8, []⟩ s)

/-! ### RTS (R325) -/

/-- 0x60 `RTS`. -/
def execRts (s : State) : Result :=
  .next (returnShort ⟨6, []⟩ s)

/-! ### RTL (R326) -/

/-- 0x6B `RTL`. -/
def execRtl (s : State) : Result :=
  .next (returnLong ⟨6, []⟩ s)

end Sys2Proof.Machine
end

