-- ==== Sys2Proof/Machine/LoadStore.lean ====
section
/-! DEFINITION. Loads and stores (42_load_store_transfer.md R220 to R226). -/

namespace Sys2Proof.Machine

/-- LDA's computation: the operand itself, with N and Z (R220). -/
def ldaOp (w : Width) (_acc operand : Word) (p : Byte) : AluOut := nzOut w operand p

/-- LDA (R220). -/
def lda (o : Operand) (k : Cost) (s : State) : State := accumulate ldaOp o k s

/-- LDX (R221). -/
def ldx (o : Operand) (k : Cost) (s : State) : State :=
  let w := s.wx
  let r := s.load w o
  ((((s.withBus r.bus).setX w r.value).setNZ w r.value).finish (o.len w) (cycleCost k s r.crossed false))

/-- LDY (R222). -/
def ldy (o : Operand) (k : Cost) (s : State) : State :=
  let w := s.wx
  let r := s.load w o
  ((((s.withBus r.bus).setY w r.value).setNZ w r.value).finish (o.len w) (cycleCost k s r.crossed false))

/-- STA (R223). -/
def sta (m : MemMode) (k : Cost) (s : State) : State := storeValue s.wm (s.acc s.wm) m k s

/-- STX (R224). -/
def stx (m : MemMode) (k : Cost) (s : State) : State := storeValue s.wx s.xe m k s

/-- STY (R225). -/
def sty (m : MemMode) (k : Cost) (s : State) : State := storeValue s.wx s.ye m k s

/-- STZ (R226). -/
def stz (m : MemMode) (k : Cost) (s : State) : State := storeValue s.wm 0 m k s

/-! ### LDA (R220) -/

/-- 0xA1 `LDA ($nn,X)`. -/
def execLdaIdpx (d : Byte) (s : State) : Result :=
  .next (lda (.mem (.idpx d)) ⟨6, [.n1, .n2]⟩ s)

/-- 0xA3 `LDA $nn,S`. -/
def execLdaSr (o : Byte) (s : State) : Result :=
  .next (lda (.mem (.sr o)) ⟨4, [.n1]⟩ s)

/-- 0xA5 `LDA $nn`. -/
def execLdaDp (d : Byte) (s : State) : Result :=
  .next (lda (.mem (.dp d)) ⟨3, [.n1, .n2]⟩ s)

/-- 0xA7 `LDA [$nn]`. -/
def execLdaIldp (d : Byte) (s : State) : Result :=
  .next (lda (.mem (.ildp d)) ⟨6, [.n1, .n2]⟩ s)

/-- 0xA9 `LDA #$nn or #$nnnn`. -/
def execLdaImm (v : Word) (s : State) : Result :=
  .next (lda (.imm v) ⟨2, [.n1]⟩ s)

/-- 0xAD `LDA $nnnn`. -/
def execLdaAbs (a : Word) (s : State) : Result :=
  .next (lda (.mem (.abs a)) ⟨4, [.n1]⟩ s)

/-- 0xAF `LDA $nnnnnn`. -/
def execLdaLong (a : Address) (s : State) : Result :=
  .next (lda (.mem (.long a)) ⟨5, [.n1]⟩ s)

/-- 0xB1 `LDA ($nn),Y`. -/
def execLdaIdpy (d : Byte) (s : State) : Result :=
  .next (lda (.mem (.idpy d)) ⟨5, [.n1, .n2, .n3]⟩ s)

/-- 0xB2 `LDA ($nn)`. -/
def execLdaIdp (d : Byte) (s : State) : Result :=
  .next (lda (.mem (.idp d)) ⟨5, [.n1, .n2]⟩ s)

/-- 0xB3 `LDA ($nn,S),Y`. -/
def execLdaIsry (o : Byte) (s : State) : Result :=
  .next (lda (.mem (.isry o)) ⟨7, [.n1]⟩ s)

/-- 0xB5 `LDA $nn,X`. -/
def execLdaDpx (d : Byte) (s : State) : Result :=
  .next (lda (.mem (.dpx d)) ⟨4, [.n1, .n2]⟩ s)

/-- 0xB7 `LDA [$nn],Y`. -/
def execLdaIldpy (d : Byte) (s : State) : Result :=
  .next (lda (.mem (.ildpy d)) ⟨6, [.n1, .n2]⟩ s)

/-- 0xB9 `LDA $nnnn,Y`. -/
def execLdaAbsy (a : Word) (s : State) : Result :=
  .next (lda (.mem (.absy a)) ⟨4, [.n1, .n3]⟩ s)

/-- 0xBD `LDA $nnnn,X`. -/
def execLdaAbsx (a : Word) (s : State) : Result :=
  .next (lda (.mem (.absx a)) ⟨4, [.n1, .n3]⟩ s)

/-- 0xBF `LDA $nnnnnn,X`. -/
def execLdaLongx (a : Address) (s : State) : Result :=
  .next (lda (.mem (.longx a)) ⟨5, [.n1]⟩ s)

/-! ### LDX (R221) -/

/-- 0xA2 `LDX #$nn or #$nnnn`. -/
def execLdxImm (v : Word) (s : State) : Result :=
  .next (ldx (.imm v) ⟨2, [.n10]⟩ s)

/-- 0xA6 `LDX $nn`. -/
def execLdxDp (d : Byte) (s : State) : Result :=
  .next (ldx (.mem (.dp d)) ⟨3, [.n2, .n10]⟩ s)

/-- 0xAE `LDX $nnnn`. -/
def execLdxAbs (a : Word) (s : State) : Result :=
  .next (ldx (.mem (.abs a)) ⟨4, [.n10]⟩ s)

/-- 0xB6 `LDX $nn,Y`. -/
def execLdxDpy (d : Byte) (s : State) : Result :=
  .next (ldx (.mem (.dpy d)) ⟨4, [.n2, .n10]⟩ s)

/-- 0xBE `LDX $nnnn,Y`. -/
def execLdxAbsy (a : Word) (s : State) : Result :=
  .next (ldx (.mem (.absy a)) ⟨4, [.n3, .n10]⟩ s)

/-! ### LDY (R222) -/

/-- 0xA0 `LDY #$nn or #$nnnn`. -/
def execLdyImm (v : Word) (s : State) : Result :=
  .next (ldy (.imm v) ⟨2, [.n10]⟩ s)

/-- 0xA4 `LDY $nn`. -/
def execLdyDp (d : Byte) (s : State) : Result :=
  .next (ldy (.mem (.dp d)) ⟨3, [.n2, .n10]⟩ s)

/-- 0xAC `LDY $nnnn`. -/
def execLdyAbs (a : Word) (s : State) : Result :=
  .next (ldy (.mem (.abs a)) ⟨4, [.n10]⟩ s)

/-- 0xB4 `LDY $nn,X`. -/
def execLdyDpx (d : Byte) (s : State) : Result :=
  .next (ldy (.mem (.dpx d)) ⟨4, [.n2, .n10]⟩ s)

/-- 0xBC `LDY $nnnn,X`. -/
def execLdyAbsx (a : Word) (s : State) : Result :=
  .next (ldy (.mem (.absx a)) ⟨4, [.n3, .n10]⟩ s)

/-! ### STA (R223) -/

/-- 0x81 `STA ($nn,X)`. -/
def execStaIdpx (d : Byte) (s : State) : Result :=
  .next (sta (.idpx d) ⟨6, [.n1, .n2]⟩ s)

/-- 0x83 `STA $nn,S`. -/
def execStaSr (o : Byte) (s : State) : Result :=
  .next (sta (.sr o) ⟨4, [.n1]⟩ s)

/-- 0x85 `STA $nn`. -/
def execStaDp (d : Byte) (s : State) : Result :=
  .next (sta (.dp d) ⟨3, [.n1, .n2]⟩ s)

/-- 0x87 `STA [$nn]`. -/
def execStaIldp (d : Byte) (s : State) : Result :=
  .next (sta (.ildp d) ⟨6, [.n1, .n2]⟩ s)

/-- 0x8D `STA $nnnn`. -/
def execStaAbs (a : Word) (s : State) : Result :=
  .next (sta (.abs a) ⟨4, [.n1]⟩ s)

/-- 0x8F `STA $nnnnnn`. -/
def execStaLong (a : Address) (s : State) : Result :=
  .next (sta (.long a) ⟨5, [.n1]⟩ s)

/-- 0x91 `STA ($nn),Y`. -/
def execStaIdpy (d : Byte) (s : State) : Result :=
  .next (sta (.idpy d) ⟨6, [.n1, .n2]⟩ s)

/-- 0x92 `STA ($nn)`. -/
def execStaIdp (d : Byte) (s : State) : Result :=
  .next (sta (.idp d) ⟨5, [.n1, .n2]⟩ s)

/-- 0x93 `STA ($nn,S),Y`. -/
def execStaIsry (o : Byte) (s : State) : Result :=
  .next (sta (.isry o) ⟨7, [.n1]⟩ s)

/-- 0x95 `STA $nn,X`. -/
def execStaDpx (d : Byte) (s : State) : Result :=
  .next (sta (.dpx d) ⟨4, [.n1, .n2]⟩ s)

/-- 0x97 `STA [$nn],Y`. -/
def execStaIldpy (d : Byte) (s : State) : Result :=
  .next (sta (.ildpy d) ⟨6, [.n1, .n2]⟩ s)

/-- 0x99 `STA $nnnn,Y`. -/
def execStaAbsy (a : Word) (s : State) : Result :=
  .next (sta (.absy a) ⟨5, [.n1]⟩ s)

/-- 0x9D `STA $nnnn,X`. -/
def execStaAbsx (a : Word) (s : State) : Result :=
  .next (sta (.absx a) ⟨5, [.n1]⟩ s)

/-- 0x9F `STA $nnnnnn,X`. -/
def execStaLongx (a : Address) (s : State) : Result :=
  .next (sta (.longx a) ⟨5, [.n1]⟩ s)

/-! ### STX (R224) -/

/-- 0x86 `STX $nn`. -/
def execStxDp (d : Byte) (s : State) : Result :=
  .next (stx (.dp d) ⟨3, [.n2, .n10]⟩ s)

/-- 0x8E `STX $nnnn`. -/
def execStxAbs (a : Word) (s : State) : Result :=
  .next (stx (.abs a) ⟨4, [.n10]⟩ s)

/-- 0x96 `STX $nn,Y`. -/
def execStxDpy (d : Byte) (s : State) : Result :=
  .next (stx (.dpy d) ⟨4, [.n2, .n10]⟩ s)

/-! ### STY (R225) -/

/-- 0x84 `STY $nn`. -/
def execStyDp (d : Byte) (s : State) : Result :=
  .next (sty (.dp d) ⟨3, [.n2, .n10]⟩ s)

/-- 0x8C `STY $nnnn`. -/
def execStyAbs (a : Word) (s : State) : Result :=
  .next (sty (.abs a) ⟨4, [.n10]⟩ s)

/-- 0x94 `STY $nn,X`. -/
def execStyDpx (d : Byte) (s : State) : Result :=
  .next (sty (.dpx d) ⟨4, [.n2, .n10]⟩ s)

/-! ### STZ (R226) -/

/-- 0x64 `STZ $nn`. -/
def execStzDp (d : Byte) (s : State) : Result :=
  .next (stz (.dp d) ⟨3, [.n1, .n2]⟩ s)

/-- 0x74 `STZ $nn,X`. -/
def execStzDpx (d : Byte) (s : State) : Result :=
  .next (stz (.dpx d) ⟨4, [.n1, .n2]⟩ s)

/-- 0x9C `STZ $nnnn`. -/
def execStzAbs (a : Word) (s : State) : Result :=
  .next (stz (.abs a) ⟨4, [.n1]⟩ s)

/-- 0x9E `STZ $nnnn,X`. -/
def execStzAbsx (a : Word) (s : State) : Result :=
  .next (stz (.absx a) ⟨5, [.n1]⟩ s)

end Sys2Proof.Machine
end

