-- ==== Sys2Proof/Machine/Logic.lean ====
section
/-! DEFINITION. Logic and bit tests (43_arith_logic.md R265 to R270). -/

namespace Sys2Proof.Machine

/-- AND (R265). -/
def andA (o : Operand) (k : Cost) (s : State) : State := accumulate andOp o k s

/-- ORA (R266). -/
def ora (o : Operand) (k : Cost) (s : State) : State := accumulate oraOp o k s

/-- EOR (R267). -/
def eor (o : Operand) (k : Cost) (s : State) : State := accumulate eorOp o k s

/-- BIT with a memory operand (R268). -/
def bitMemory (m : MemMode) (k : Cost) (s : State) : State :=
  testOperand bitP s.wm (s.acc s.wm) (.mem m) k s

/-- BIT with an immediate: only Z (R268). -/
def bitImmediate (v : Word) (k : Cost) (s : State) : State :=
  testOperand (fun _ a b p => putTestZ a b p) s.wm (s.acc s.wm) (.imm v) k s

/-- TSB (R269). -/
def tsb (m : MemMode) (k : Cost) (s : State) : State :=
  modifyMemory (fun w v p => tsbOp (s.acc w) v p) m k s

/-- TRB (R270). -/
def trb (m : MemMode) (k : Cost) (s : State) : State :=
  modifyMemory (fun w v p => trbOp w (s.acc w) v p) m k s

/-! ### AND (R265) -/

/-- 0x21 `AND ($nn,X)`. -/
def execAndIdpx (d : Byte) (s : State) : Result :=
  .next (andA (.mem (.idpx d)) ⟨6, [.n1, .n2]⟩ s)

/-- 0x23 `AND $nn,S`. -/
def execAndSr (o : Byte) (s : State) : Result :=
  .next (andA (.mem (.sr o)) ⟨4, [.n1]⟩ s)

/-- 0x25 `AND $nn`. -/
def execAndDp (d : Byte) (s : State) : Result :=
  .next (andA (.mem (.dp d)) ⟨3, [.n1, .n2]⟩ s)

/-- 0x27 `AND [$nn]`. -/
def execAndIldp (d : Byte) (s : State) : Result :=
  .next (andA (.mem (.ildp d)) ⟨6, [.n1, .n2]⟩ s)

/-- 0x29 `AND #$nn or #$nnnn`. -/
def execAndImm (v : Word) (s : State) : Result :=
  .next (andA (.imm v) ⟨2, [.n1]⟩ s)

/-- 0x2D `AND $nnnn`. -/
def execAndAbs (a : Word) (s : State) : Result :=
  .next (andA (.mem (.abs a)) ⟨4, [.n1]⟩ s)

/-- 0x2F `AND $nnnnnn`. -/
def execAndLong (a : Address) (s : State) : Result :=
  .next (andA (.mem (.long a)) ⟨5, [.n1]⟩ s)

/-- 0x31 `AND ($nn),Y`. -/
def execAndIdpy (d : Byte) (s : State) : Result :=
  .next (andA (.mem (.idpy d)) ⟨5, [.n1, .n2, .n3]⟩ s)

/-- 0x32 `AND ($nn)`. -/
def execAndIdp (d : Byte) (s : State) : Result :=
  .next (andA (.mem (.idp d)) ⟨5, [.n1, .n2]⟩ s)

/-- 0x33 `AND ($nn,S),Y`. -/
def execAndIsry (o : Byte) (s : State) : Result :=
  .next (andA (.mem (.isry o)) ⟨7, [.n1]⟩ s)

/-- 0x35 `AND $nn,X`. -/
def execAndDpx (d : Byte) (s : State) : Result :=
  .next (andA (.mem (.dpx d)) ⟨4, [.n1, .n2]⟩ s)

/-- 0x37 `AND [$nn],Y`. -/
def execAndIldpy (d : Byte) (s : State) : Result :=
  .next (andA (.mem (.ildpy d)) ⟨6, [.n1, .n2]⟩ s)

/-- 0x39 `AND $nnnn,Y`. -/
def execAndAbsy (a : Word) (s : State) : Result :=
  .next (andA (.mem (.absy a)) ⟨4, [.n1, .n3]⟩ s)

/-- 0x3D `AND $nnnn,X`. -/
def execAndAbsx (a : Word) (s : State) : Result :=
  .next (andA (.mem (.absx a)) ⟨4, [.n1, .n3]⟩ s)

/-- 0x3F `AND $nnnnnn,X`. -/
def execAndLongx (a : Address) (s : State) : Result :=
  .next (andA (.mem (.longx a)) ⟨5, [.n1]⟩ s)

/-! ### ORA (R266) -/

/-- 0x01 `ORA ($nn,X)`. -/
def execOraIdpx (d : Byte) (s : State) : Result :=
  .next (ora (.mem (.idpx d)) ⟨6, [.n1, .n2]⟩ s)

/-- 0x03 `ORA $nn,S`. -/
def execOraSr (o : Byte) (s : State) : Result :=
  .next (ora (.mem (.sr o)) ⟨4, [.n1]⟩ s)

/-- 0x05 `ORA $nn`. -/
def execOraDp (d : Byte) (s : State) : Result :=
  .next (ora (.mem (.dp d)) ⟨3, [.n1, .n2]⟩ s)

/-- 0x07 `ORA [$nn]`. -/
def execOraIldp (d : Byte) (s : State) : Result :=
  .next (ora (.mem (.ildp d)) ⟨6, [.n1, .n2]⟩ s)

/-- 0x09 `ORA #$nn or #$nnnn`. -/
def execOraImm (v : Word) (s : State) : Result :=
  .next (ora (.imm v) ⟨2, [.n1]⟩ s)

/-- 0x0D `ORA $nnnn`. -/
def execOraAbs (a : Word) (s : State) : Result :=
  .next (ora (.mem (.abs a)) ⟨4, [.n1]⟩ s)

/-- 0x0F `ORA $nnnnnn`. -/
def execOraLong (a : Address) (s : State) : Result :=
  .next (ora (.mem (.long a)) ⟨5, [.n1]⟩ s)

/-- 0x11 `ORA ($nn),Y`. -/
def execOraIdpy (d : Byte) (s : State) : Result :=
  .next (ora (.mem (.idpy d)) ⟨5, [.n1, .n2, .n3]⟩ s)

/-- 0x12 `ORA ($nn)`. -/
def execOraIdp (d : Byte) (s : State) : Result :=
  .next (ora (.mem (.idp d)) ⟨5, [.n1, .n2]⟩ s)

/-- 0x13 `ORA ($nn,S),Y`. -/
def execOraIsry (o : Byte) (s : State) : Result :=
  .next (ora (.mem (.isry o)) ⟨7, [.n1]⟩ s)

/-- 0x15 `ORA $nn,X`. -/
def execOraDpx (d : Byte) (s : State) : Result :=
  .next (ora (.mem (.dpx d)) ⟨4, [.n1, .n2]⟩ s)

/-- 0x17 `ORA [$nn],Y`. -/
def execOraIldpy (d : Byte) (s : State) : Result :=
  .next (ora (.mem (.ildpy d)) ⟨6, [.n1, .n2]⟩ s)

/-- 0x19 `ORA $nnnn,Y`. -/
def execOraAbsy (a : Word) (s : State) : Result :=
  .next (ora (.mem (.absy a)) ⟨4, [.n1, .n3]⟩ s)

/-- 0x1D `ORA $nnnn,X`. -/
def execOraAbsx (a : Word) (s : State) : Result :=
  .next (ora (.mem (.absx a)) ⟨4, [.n1, .n3]⟩ s)

/-- 0x1F `ORA $nnnnnn,X`. -/
def execOraLongx (a : Address) (s : State) : Result :=
  .next (ora (.mem (.longx a)) ⟨5, [.n1]⟩ s)

/-! ### EOR (R267) -/

/-- 0x41 `EOR ($nn,X)`. -/
def execEorIdpx (d : Byte) (s : State) : Result :=
  .next (eor (.mem (.idpx d)) ⟨6, [.n1, .n2]⟩ s)

/-- 0x43 `EOR $nn,S`. -/
def execEorSr (o : Byte) (s : State) : Result :=
  .next (eor (.mem (.sr o)) ⟨4, [.n1]⟩ s)

/-- 0x45 `EOR $nn`. -/
def execEorDp (d : Byte) (s : State) : Result :=
  .next (eor (.mem (.dp d)) ⟨3, [.n1, .n2]⟩ s)

/-- 0x47 `EOR [$nn]`. -/
def execEorIldp (d : Byte) (s : State) : Result :=
  .next (eor (.mem (.ildp d)) ⟨6, [.n1, .n2]⟩ s)

/-- 0x49 `EOR #$nn or #$nnnn`. -/
def execEorImm (v : Word) (s : State) : Result :=
  .next (eor (.imm v) ⟨2, [.n1]⟩ s)

/-- 0x4D `EOR $nnnn`. -/
def execEorAbs (a : Word) (s : State) : Result :=
  .next (eor (.mem (.abs a)) ⟨4, [.n1]⟩ s)

/-- 0x4F `EOR $nnnnnn`. -/
def execEorLong (a : Address) (s : State) : Result :=
  .next (eor (.mem (.long a)) ⟨5, [.n1]⟩ s)

/-- 0x51 `EOR ($nn),Y`. -/
def execEorIdpy (d : Byte) (s : State) : Result :=
  .next (eor (.mem (.idpy d)) ⟨5, [.n1, .n2, .n3]⟩ s)

/-- 0x52 `EOR ($nn)`. -/
def execEorIdp (d : Byte) (s : State) : Result :=
  .next (eor (.mem (.idp d)) ⟨5, [.n1, .n2]⟩ s)

/-- 0x53 `EOR ($nn,S),Y`. -/
def execEorIsry (o : Byte) (s : State) : Result :=
  .next (eor (.mem (.isry o)) ⟨7, [.n1]⟩ s)

/-- 0x55 `EOR $nn,X`. -/
def execEorDpx (d : Byte) (s : State) : Result :=
  .next (eor (.mem (.dpx d)) ⟨4, [.n1, .n2]⟩ s)

/-- 0x57 `EOR [$nn],Y`. -/
def execEorIldpy (d : Byte) (s : State) : Result :=
  .next (eor (.mem (.ildpy d)) ⟨6, [.n1, .n2]⟩ s)

/-- 0x59 `EOR $nnnn,Y`. -/
def execEorAbsy (a : Word) (s : State) : Result :=
  .next (eor (.mem (.absy a)) ⟨4, [.n1, .n3]⟩ s)

/-- 0x5D `EOR $nnnn,X`. -/
def execEorAbsx (a : Word) (s : State) : Result :=
  .next (eor (.mem (.absx a)) ⟨4, [.n1, .n3]⟩ s)

/-- 0x5F `EOR $nnnnnn,X`. -/
def execEorLongx (a : Address) (s : State) : Result :=
  .next (eor (.mem (.longx a)) ⟨5, [.n1]⟩ s)

/-! ### BIT (R268) -/

/-- 0x24 `BIT $nn`. -/
def execBitDp (d : Byte) (s : State) : Result :=
  .next (bitMemory (.dp d) ⟨3, [.n1, .n2]⟩ s)

/-- 0x2C `BIT $nnnn`. -/
def execBitAbs (a : Word) (s : State) : Result :=
  .next (bitMemory (.abs a) ⟨4, [.n1]⟩ s)

/-- 0x34 `BIT $nn,X`. -/
def execBitDpx (d : Byte) (s : State) : Result :=
  .next (bitMemory (.dpx d) ⟨4, [.n1, .n2]⟩ s)

/-- 0x3C `BIT $nnnn,X`. -/
def execBitAbsx (a : Word) (s : State) : Result :=
  .next (bitMemory (.absx a) ⟨4, [.n1, .n3]⟩ s)

/-- 0x89 `BIT #$nn or #$nnnn`. -/
def execBitImm (v : Word) (s : State) : Result :=
  .next (bitImmediate v ⟨2, [.n1]⟩ s)

/-! ### TSB (R269) -/

/-- 0x04 `TSB $nn`. -/
def execTsbDp (d : Byte) (s : State) : Result :=
  .next (tsb (.dp d) ⟨5, [.n2, .n8]⟩ s)

/-- 0x0C `TSB $nnnn`. -/
def execTsbAbs (a : Word) (s : State) : Result :=
  .next (tsb (.abs a) ⟨6, [.n8]⟩ s)

/-! ### TRB (R270) -/

/-- 0x14 `TRB $nn`. -/
def execTrbDp (d : Byte) (s : State) : Result :=
  .next (trb (.dp d) ⟨5, [.n2, .n8]⟩ s)

/-- 0x1C `TRB $nnnn`. -/
def execTrbAbs (a : Word) (s : State) : Result :=
  .next (trb (.abs a) ⟨6, [.n8]⟩ s)

end Sys2Proof.Machine
end

