-- ==== Sys2Proof/Machine/Shift.lean ====
section
/-! DEFINITION. Shifts and rotates (44_shift_rotate.md R300 to R303), over the accumulator and
memory patterns of Operands.lean and the computations of Flags.lean. -/

namespace Sys2Proof.Machine

/-! ### ASL (R300) -/

/-- 0x06 `ASL $nn`. -/
def execAslDp (d : Byte) (s : State) : Result :=
  .next (modifyMemory aslOp (.dp d) ⟨5, [.n2, .n8]⟩ s)

/-- 0x0A `ASL A`. -/
def execAslAcc (s : State) : Result :=
  .next (modifyAccumulator aslOp ⟨2, []⟩ s)

/-- 0x0E `ASL $nnnn`. -/
def execAslAbs (a : Word) (s : State) : Result :=
  .next (modifyMemory aslOp (.abs a) ⟨6, [.n8]⟩ s)

/-- 0x16 `ASL $nn,X`. -/
def execAslDpx (d : Byte) (s : State) : Result :=
  .next (modifyMemory aslOp (.dpx d) ⟨6, [.n2, .n8]⟩ s)

/-- 0x1E `ASL $nnnn,X`. -/
def execAslAbsx (a : Word) (s : State) : Result :=
  .next (modifyMemory aslOp (.absx a) ⟨7, [.n8]⟩ s)

/-! ### LSR (R301) -/

/-- 0x46 `LSR $nn`. -/
def execLsrDp (d : Byte) (s : State) : Result :=
  .next (modifyMemory lsrOp (.dp d) ⟨5, [.n2, .n8]⟩ s)

/-- 0x4A `LSR A`. -/
def execLsrAcc (s : State) : Result :=
  .next (modifyAccumulator lsrOp ⟨2, []⟩ s)

/-- 0x4E `LSR $nnnn`. -/
def execLsrAbs (a : Word) (s : State) : Result :=
  .next (modifyMemory lsrOp (.abs a) ⟨6, [.n8]⟩ s)

/-- 0x56 `LSR $nn,X`. -/
def execLsrDpx (d : Byte) (s : State) : Result :=
  .next (modifyMemory lsrOp (.dpx d) ⟨6, [.n2, .n8]⟩ s)

/-- 0x5E `LSR $nnnn,X`. -/
def execLsrAbsx (a : Word) (s : State) : Result :=
  .next (modifyMemory lsrOp (.absx a) ⟨7, [.n8]⟩ s)

/-! ### ROL (R302) -/

/-- 0x26 `ROL $nn`. -/
def execRolDp (d : Byte) (s : State) : Result :=
  .next (modifyMemory rolOp (.dp d) ⟨5, [.n2, .n8]⟩ s)

/-- 0x2A `ROL A`. -/
def execRolAcc (s : State) : Result :=
  .next (modifyAccumulator rolOp ⟨2, []⟩ s)

/-- 0x2E `ROL $nnnn`. -/
def execRolAbs (a : Word) (s : State) : Result :=
  .next (modifyMemory rolOp (.abs a) ⟨6, [.n8]⟩ s)

/-- 0x36 `ROL $nn,X`. -/
def execRolDpx (d : Byte) (s : State) : Result :=
  .next (modifyMemory rolOp (.dpx d) ⟨6, [.n2, .n8]⟩ s)

/-- 0x3E `ROL $nnnn,X`. -/
def execRolAbsx (a : Word) (s : State) : Result :=
  .next (modifyMemory rolOp (.absx a) ⟨7, [.n8]⟩ s)

/-! ### ROR (R303) -/

/-- 0x66 `ROR $nn`. -/
def execRorDp (d : Byte) (s : State) : Result :=
  .next (modifyMemory rorOp (.dp d) ⟨5, [.n2, .n8]⟩ s)

/-- 0x6A `ROR A`. -/
def execRorAcc (s : State) : Result :=
  .next (modifyAccumulator rorOp ⟨2, []⟩ s)

/-- 0x6E `ROR $nnnn`. -/
def execRorAbs (a : Word) (s : State) : Result :=
  .next (modifyMemory rorOp (.abs a) ⟨6, [.n8]⟩ s)

/-- 0x76 `ROR $nn,X`. -/
def execRorDpx (d : Byte) (s : State) : Result :=
  .next (modifyMemory rorOp (.dpx d) ⟨6, [.n2, .n8]⟩ s)

/-- 0x7E `ROR $nnnn,X`. -/
def execRorAbsx (a : Word) (s : State) : Result :=
  .next (modifyMemory rorOp (.absx a) ⟨7, [.n8]⟩ s)

end Sys2Proof.Machine
end

