-- ==== Sys2Proof/Machine/Stack.lean ====
section
/-! DEFINITION. Stack instructions (46_stack.md R340 to R355). -/

namespace Sys2Proof.Machine

/-- A push of one byte, of an implied instruction. -/
def pushByte (v : Byte) (k : Cost) (s : State) : State := (s.push8 v).finish 1 (plainCost k s)

/-- A push of a register at its width (R340, R345, R346). -/
def pushRegister (w : Width) (v : Word) (k : Cost) (s : State) : State :=
  (s.pushW w v).finish 1 (plainCost k s)

/-- A push of 16 bits by an instruction of length `len` (R342, R353, R355). -/
def pushWord (v : Word) (len : Nat) (k : Cost) (s : State) : State :=
  (s.push16 v).finish len (plainCost k s)

/-- PEI: the pointer at a direct-page offset, never wrapped in the page, is pushed (R354). -/
def pushIndirect (d : Byte) (k : Cost) (s : State) : State :=
  let p := s.bus.read2 (s.dpLoc d.toNat false)
  ((s.withBus p.bus).push16 p.val).finish 2 (plainCost k s)

/-- PLA (R347). -/
def pullAcc (k : Cost) (s : State) : State :=
  let w := s.wm
  let r := s.pullW w
  ((r.st.setAcc w r.val).setNZ w r.val).finish 1 (plainCost k s)

/-- PLX (R351). -/
def pullX (k : Cost) (s : State) : State :=
  let w := s.wx
  let r := s.pullW w
  ((r.st.setX w r.val).setNZ w r.val).finish 1 (plainCost k s)

/-- PLY (R352). -/
def pullY (k : Cost) (s : State) : State :=
  let w := s.wx
  let r := s.pullW w
  ((r.st.setY w r.val).setNZ w r.val).finish 1 (plainCost k s)

/-- PLB: always 8 bits (R348). -/
def pullDataBank (k : Cost) (s : State) : State :=
  let r := s.pull8
  ({ r.st with dbr := r.val }.setNZ .w8 (zeroExtend8 r.val)).finish 1 (plainCost k s)

/-- PLD: always 16 bits (R349). -/
def pullDirect (k : Cost) (s : State) : State :=
  let r := s.pull16
  ({ r.st with d := r.val }.setNZ .w16 r.val).finish 1 (plainCost k s)

/-- PLP: through `WriteP` (R350). -/
def pullStatus (k : Cost) (s : State) : State :=
  let r := s.pull8
  (r.st.writeP r.val).finish 1 (plainCost k s)

/-! ### PHA (R340) -/

/-- 0x48 `PHA`. -/
def execPha (s : State) : Result :=
  .next (pushRegister s.wm (s.acc s.wm) ⟨3, [.n1]⟩ s)

/-! ### PHB (R341) -/

/-- 0x8B `PHB`. -/
def execPhb (s : State) : Result :=
  .next (pushByte s.dbr ⟨3, []⟩ s)

/-! ### PHD (R342) -/

/-- 0x0B `PHD`. -/
def execPhd (s : State) : Result :=
  .next (pushWord s.d 1 ⟨4, []⟩ s)

/-! ### PHK (R343) -/

/-- 0x4B `PHK`. -/
def execPhk (s : State) : Result :=
  .next (pushByte s.pbr ⟨3, []⟩ s)

/-! ### PHP (R344) -/

/-- 0x08 `PHP`. -/
def execPhp (s : State) : Result :=
  .next (pushByte (pushedP s.e s.p) ⟨3, []⟩ s)

/-! ### PHX (R345) -/

/-- 0xDA `PHX`. -/
def execPhx (s : State) : Result :=
  .next (pushRegister s.wx s.xe ⟨3, [.n10]⟩ s)

/-! ### PHY (R346) -/

/-- 0x5A `PHY`. -/
def execPhy (s : State) : Result :=
  .next (pushRegister s.wx s.ye ⟨3, [.n10]⟩ s)

/-! ### PLA (R347) -/

/-- 0x68 `PLA`. -/
def execPla (s : State) : Result :=
  .next (pullAcc ⟨4, [.n1]⟩ s)

/-! ### PLB (R348) -/

/-- 0xAB `PLB`. -/
def execPlb (s : State) : Result :=
  .next (pullDataBank ⟨4, []⟩ s)

/-! ### PLD (R349) -/

/-- 0x2B `PLD`. -/
def execPld (s : State) : Result :=
  .next (pullDirect ⟨5, []⟩ s)

/-! ### PLP (R350) -/

/-- 0x28 `PLP`. -/
def execPlp (s : State) : Result :=
  .next (pullStatus ⟨4, []⟩ s)

/-! ### PLX (R351) -/

/-- 0xFA `PLX`. -/
def execPlx (s : State) : Result :=
  .next (pullX ⟨4, [.n10]⟩ s)

/-! ### PLY (R352) -/

/-- 0x7A `PLY`. -/
def execPly (s : State) : Result :=
  .next (pullY ⟨4, [.n10]⟩ s)

/-! ### PEA (R353) -/

/-- 0xF4 `PEA $nnnn`. -/
def execPea (v : Word) (s : State) : Result :=
  .next (pushWord v 3 ⟨5, []⟩ s)

/-! ### PEI (R354) -/

/-- 0xD4 `PEI ($nn)`. -/
def execPei (d : Byte) (s : State) : Result :=
  .next (pushIndirect d ⟨6, [.n2]⟩ s)

/-! ### PER (R355) -/

/-- 0x62 `PER label`. -/
def execPer (r : Word) (s : State) : Result :=
  .next (pushWord (s.pc + 3 + r) 3 ⟨6, []⟩ s)

end Sys2Proof.Machine
end

