-- ==== Sys2Proof/Machine/Status.lean ====
section
/-! DEFINITION. Flag, width and mode instructions (47_status_system.md R371 to R380). -/

namespace Sys2Proof.Machine

/-- An instruction that writes one flag (R371 to R377). -/
def writeFlag (f : Flag) (v : Bool) (k : Cost) (s : State) : State :=
  (s.setFlag f v).finish 1 (plainCost k s)

/-- REP and SEP: the new P through `WriteP` (R378, R379). -/
def writeStatus (v : Byte) (k : Cost) (s : State) : State :=
  (s.writeP v).finish 2 (plainCost k s)

/-- XCE: the carry and the emulation flag exchanged; entering or staying in emulation mode sets the
width flags, clears XH and YH and puts S in page 1 (R380). -/
def exchangeCE (k : Cost) (s : State) : State :=
  let e := s.flag .c
  let p := putFlag .c s.e s.p
  { s with
    e  := e
    p  := if e then putFlag .x true (putFlag .m true p) else p
    x  := if e then Width.w8.trunc s.x else s.x
    y  := if e then Width.w8.trunc s.y else s.y
    sp := if e then joinBytes 0x01 (lowByte s.sp) else s.sp }.finish 1 (plainCost k s)

/-! ### CLC (R371) -/

/-- 0x18 `CLC`. -/
def execClc (s : State) : Result :=
  .next (writeFlag .c false ⟨2, []⟩ s)

/-! ### CLD (R372) -/

/-- 0xD8 `CLD`. -/
def execCld (s : State) : Result :=
  .next (writeFlag .d false ⟨2, []⟩ s)

/-! ### CLI (R373) -/

/-- 0x58 `CLI`. -/
def execCli (s : State) : Result :=
  .next (writeFlag .i false ⟨2, []⟩ s)

/-! ### CLV (R374) -/

/-- 0xB8 `CLV`. -/
def execClv (s : State) : Result :=
  .next (writeFlag .v false ⟨2, []⟩ s)

/-! ### SEC (R375) -/

/-- 0x38 `SEC`. -/
def execSec (s : State) : Result :=
  .next (writeFlag .c true ⟨2, []⟩ s)

/-! ### SED (R376) -/

/-- 0xF8 `SED`. -/
def execSed (s : State) : Result :=
  .next (writeFlag .d true ⟨2, []⟩ s)

/-! ### SEI (R377) -/

/-- 0x78 `SEI`. -/
def execSei (s : State) : Result :=
  .next (writeFlag .i true ⟨2, []⟩ s)

/-! ### REP (R378) -/

/-- 0xC2 `REP #$nn`. -/
def execRep (mask : Byte) (s : State) : Result :=
  .next (writeStatus (s.p &&& (mask ^^^ 0xFF)) ⟨3, []⟩ s)

/-! ### SEP (R379) -/

/-- 0xE2 `SEP #$nn`. -/
def execSep (mask : Byte) (s : State) : Result :=
  .next (writeStatus (s.p ||| mask) ⟨3, []⟩ s)

/-! ### XCE (R380) -/

/-- 0xFB `XCE`. -/
def execXce (s : State) : Result :=
  .next (exchangeCE ⟨2, []⟩ s)

end Sys2Proof.Machine
end

