-- ==== Sys2Proof/Machine/System.lean ====
section
/-! DEFINITION. Software interrupts, return, run state and no-operations (47_status_system.md R381 to
R387). -/

namespace Sys2Proof.Machine

/-- WAI and STP: the run state, then the end of the instruction (R384, R385). -/
def enterRunState (r : RunState) (k : Cost) (s : State) : State :=
  { s with run := r }.finish 1 (plainCost k s)

/-! ### BRK (R381) -/

/-- 0x00 `BRK #$nn`. -/
def execBrk (_sig : Byte) (s : State) : Result :=
  .next (s.interruptEntry s.brkVector ⟨7, [.n4]⟩)

/-! ### COP (R382) -/

/-- 0x02 `COP #$nn`. -/
def execCop (_sig : Byte) (s : State) : Result :=
  .next (s.interruptEntry s.copVector ⟨7, [.n4]⟩)

/-! ### RTI (R383) -/

/-- 0x40 `RTI`. -/
def execRti (s : State) : Result :=
  .next (s.interruptReturn ⟨6, [.n4]⟩)

/-! ### WAI (R384) -/

/-- 0xCB `WAI`. -/
def execWai (s : State) : Result :=
  .next (enterRunState .waiting ⟨3, []⟩ s)

/-! ### STP (R385) -/

/-- 0xDB `STP`. -/
def execStp (s : State) : Result :=
  .next (enterRunState .stopped ⟨3, []⟩ s)

/-! ### NOP (R386) -/

/-- 0xEA `NOP`. -/
def execNop (s : State) : Result :=
  .next (s.finish 1 (plainCost ⟨2, []⟩ s))

/-! ### WDM (R387) -/

/-- 0x42 `WDM #$nn`. -/
def execWdm (_sig : Byte) (s : State) : Result :=
  .next (s.finish 2 (plainCost ⟨2, []⟩ s))

end Sys2Proof.Machine
end

