-- ==== Sys2Proof/Machine/Transfer.lean ====
section
/-! DEFINITION. Register transfers (42_load_store_transfer.md R227 to R239). -/

namespace Sys2Proof.Machine

/-- A transfer into X at width `wx`: the width is the destination's (R227, R232, R233). -/
def transferToX (v : Word) (k : Cost) (s : State) : State :=
  ((s.setX s.wx v).setNZ s.wx v).finish 1 (plainCost k s)

/-- A transfer into Y at width `wx` (R228, R231). -/
def transferToY (v : Word) (k : Cost) (s : State) : State :=
  ((s.setY s.wx v).setNZ s.wx v).finish 1 (plainCost k s)

/-- A transfer of an effective index into the accumulator at width `wm` (R229, R230). -/
def transferToAcc (v : Word) (k : Cost) (s : State) : State :=
  ((s.setAcc s.wm v).setNZ s.wm v).finish 1 (plainCost k s)

/-- A transfer into S: page 1 in emulation mode, all 16 bits in native mode; no flags (R234, R235). -/
def transferToS (v : Word) (k : Cost) (s : State) : State :=
  { s with sp := if s.e then joinBytes 0x01 (lowByte v) else v }.finish 1 (plainCost k s)

/-- A transfer of all 16 bits into C, whatever `wm` is (R236, R238). -/
def transferToC (v : Word) (k : Cost) (s : State) : State :=
  ({ s with c := v }.setNZ .w16 v).finish 1 (plainCost k s)

/-- A transfer of all 16 bits into D, whatever `wm` is (R237). -/
def transferToD (v : Word) (k : Cost) (s : State) : State :=
  ({ s with d := v }.setNZ .w16 v).finish 1 (plainCost k s)

/-- XBA: A and B exchanged, N and Z from the new A at 8 bits (R239). -/
def exchangeBA (k : Cost) (s : State) : State :=
  ({ s with c := joinBytes s.a s.b }.setNZ .w8 (zeroExtend8 s.b)).finish 1 (plainCost k s)

/-! ### TAX (R227) -/

/-- 0xAA `TAX`. -/
def execTax (s : State) : Result :=
  .next (transferToX s.c ⟨2, []⟩ s)

/-! ### TAY (R228) -/

/-- 0xA8 `TAY`. -/
def execTay (s : State) : Result :=
  .next (transferToY s.c ⟨2, []⟩ s)

/-! ### TXA (R229) -/

/-- 0x8A `TXA`. -/
def execTxa (s : State) : Result :=
  .next (transferToAcc s.xe ⟨2, []⟩ s)

/-! ### TYA (R230) -/

/-- 0x98 `TYA`. -/
def execTya (s : State) : Result :=
  .next (transferToAcc s.ye ⟨2, []⟩ s)

/-! ### TXY (R231) -/

/-- 0x9B `TXY`. -/
def execTxy (s : State) : Result :=
  .next (transferToY s.xe ⟨2, []⟩ s)

/-! ### TYX (R232) -/

/-- 0xBB `TYX`. -/
def execTyx (s : State) : Result :=
  .next (transferToX s.ye ⟨2, []⟩ s)

/-! ### TSX (R233) -/

/-- 0xBA `TSX`. -/
def execTsx (s : State) : Result :=
  .next (transferToX s.sp ⟨2, []⟩ s)

/-! ### TXS (R234) -/

/-- 0x9A `TXS`. -/
def execTxs (s : State) : Result :=
  .next (transferToS s.xe ⟨2, []⟩ s)

/-! ### TCS (R235) -/

/-- 0x1B `TCS`. -/
def execTcs (s : State) : Result :=
  .next (transferToS s.c ⟨2, []⟩ s)

/-! ### TSC (R236) -/

/-- 0x3B `TSC`. -/
def execTsc (s : State) : Result :=
  .next (transferToC s.sp ⟨2, []⟩ s)

/-! ### TCD (R237) -/

/-- 0x5B `TCD`. -/
def execTcd (s : State) : Result :=
  .next (transferToD s.c ⟨2, []⟩ s)

/-! ### TDC (R238) -/

/-- 0x7B `TDC`. -/
def execTdc (s : State) : Result :=
  .next (transferToC s.d ⟨2, []⟩ s)

/-! ### XBA (R239) -/

/-- 0xEB `XBA`. -/
def execXba (s : State) : Result :=
  .next (exchangeBA ⟨3, []⟩ s)

end Sys2Proof.Machine
end

