-- ==== Sys2Proof/Syntax.lean ====
section
/-! DEFINITION. The instructions, as syntax: one constructor for each row of the opcode table
(30_encoding.md R121, R130). A constructor is named by its mnemonic and, where the mnemonic has
several rows, by its format. Operands are the operand bytes of R121, assembled little-endian
(R123): `d` a direct-page offset, `o` a stack offset, `a` an address, `v` an immediate, `r` a
displacement as encoded (R126), `dd` and `ss` the banks of a block move in the order of their bytes
(R127), `sig` a signature byte (R128). An immediate whose width follows `wm` or `wx` (R124) is held
as 16 bits; `WellFormed.lean` says which values the narrow form can hold. The rows with operand bytes
stand first, in opcode order, then those without. -/

namespace Sys2Proof

/-- The instruction set (30_encoding.md R130). -/
inductive Instr where
  /-- 0x00 `BRK #$nn` (R381, R184). -/
  | brk (sig : Byte)
  /-- 0x01 `ORA ($nn,X)` (R266, R189). -/
  | oraIdpx (d : Byte)
  /-- 0x02 `COP #$nn` (R382, R184). -/
  | cop (sig : Byte)
  /-- 0x03 `ORA $nn,S` (R266, R198). -/
  | oraSr (o : Byte)
  /-- 0x04 `TSB $nn` (R269, R185). -/
  | tsbDp (d : Byte)
  /-- 0x05 `ORA $nn` (R266, R185). -/
  | oraDp (d : Byte)
  /-- 0x06 `ASL $nn` (R300, R185). -/
  | aslDp (d : Byte)
  /-- 0x07 `ORA [$nn]` (R266, R191). -/
  | oraIldp (d : Byte)
  /-- 0x09 `ORA #$nn or #$nnnn` (R266, R184). -/
  | oraImm (v : Word)
  /-- 0x0C `TSB $nnnn` (R269, R193). -/
  | tsbAbs (a : Word)
  /-- 0x0D `ORA $nnnn` (R266, R193). -/
  | oraAbs (a : Word)
  /-- 0x0E `ASL $nnnn` (R300, R193). -/
  | aslAbs (a : Word)
  /-- 0x0F `ORA $nnnnnn` (R266, R196). -/
  | oraLong (a : Address)
  /-- 0x10 `BPL label` (R316, R206). -/
  | bpl (r : Byte)
  /-- 0x11 `ORA ($nn),Y` (R266, R190). -/
  | oraIdpy (d : Byte)
  /-- 0x12 `ORA ($nn)` (R266, R188). -/
  | oraIdp (d : Byte)
  /-- 0x13 `ORA ($nn,S),Y` (R266, R199). -/
  | oraIsry (o : Byte)
  /-- 0x14 `TRB $nn` (R270, R185). -/
  | trbDp (d : Byte)
  /-- 0x15 `ORA $nn,X` (R266, R186). -/
  | oraDpx (d : Byte)
  /-- 0x16 `ASL $nn,X` (R300, R186). -/
  | aslDpx (d : Byte)
  /-- 0x17 `ORA [$nn],Y` (R266, R192). -/
  | oraIldpy (d : Byte)
  /-- 0x19 `ORA $nnnn,Y` (R266, R195). -/
  | oraAbsy (a : Word)
  /-- 0x1C `TRB $nnnn` (R270, R193). -/
  | trbAbs (a : Word)
  /-- 0x1D `ORA $nnnn,X` (R266, R194). -/
  | oraAbsx (a : Word)
  /-- 0x1E `ASL $nnnn,X` (R300, R194). -/
  | aslAbsx (a : Word)
  /-- 0x1F `ORA $nnnnnn,X` (R266, R197). -/
  | oraLongx (a : Address)
  /-- 0x20 `JSR $nnnn` (R323, R205). -/
  | jsrJabs (a : Word)
  /-- 0x21 `AND ($nn,X)` (R265, R189). -/
  | andIdpx (d : Byte)
  /-- 0x22 `JSL $nnnnnn` (R324, R205). -/
  | jsl (a : Address)
  /-- 0x23 `AND $nn,S` (R265, R198). -/
  | andSr (o : Byte)
  /-- 0x24 `BIT $nn` (R268, R185). -/
  | bitDp (d : Byte)
  /-- 0x25 `AND $nn` (R265, R185). -/
  | andDp (d : Byte)
  /-- 0x26 `ROL $nn` (R302, R185). -/
  | rolDp (d : Byte)
  /-- 0x27 `AND [$nn]` (R265, R191). -/
  | andIldp (d : Byte)
  /-- 0x29 `AND #$nn or #$nnnn` (R265, R184). -/
  | andImm (v : Word)
  /-- 0x2C `BIT $nnnn` (R268, R193). -/
  | bitAbs (a : Word)
  /-- 0x2D `AND $nnnn` (R265, R193). -/
  | andAbs (a : Word)
  /-- 0x2E `ROL $nnnn` (R302, R193). -/
  | rolAbs (a : Word)
  /-- 0x2F `AND $nnnnnn` (R265, R196). -/
  | andLong (a : Address)
  /-- 0x30 `BMI label` (R315, R206). -/
  | bmi (r : Byte)
  /-- 0x31 `AND ($nn),Y` (R265, R190). -/
  | andIdpy (d : Byte)
  /-- 0x32 `AND ($nn)` (R265, R188). -/
  | andIdp (d : Byte)
  /-- 0x33 `AND ($nn,S),Y` (R265, R199). -/
  | andIsry (o : Byte)
  /-- 0x34 `BIT $nn,X` (R268, R186). -/
  | bitDpx (d : Byte)
  /-- 0x35 `AND $nn,X` (R265, R186). -/
  | andDpx (d : Byte)
  /-- 0x36 `ROL $nn,X` (R302, R186). -/
  | rolDpx (d : Byte)
  /-- 0x37 `AND [$nn],Y` (R265, R192). -/
  | andIldpy (d : Byte)
  /-- 0x39 `AND $nnnn,Y` (R265, R195). -/
  | andAbsy (a : Word)
  /-- 0x3C `BIT $nnnn,X` (R268, R194). -/
  | bitAbsx (a : Word)
  /-- 0x3D `AND $nnnn,X` (R265, R194). -/
  | andAbsx (a : Word)
  /-- 0x3E `ROL $nnnn,X` (R302, R194). -/
  | rolAbsx (a : Word)
  /-- 0x3F `AND $nnnnnn,X` (R265, R197). -/
  | andLongx (a : Address)
  /-- 0x41 `EOR ($nn,X)` (R267, R189). -/
  | eorIdpx (d : Byte)
  /-- 0x42 `WDM #$nn` (R387, R184). -/
  | wdm (sig : Byte)
  /-- 0x43 `EOR $nn,S` (R267, R198). -/
  | eorSr (o : Byte)
  /-- 0x44 `MVP $ss,$dd` (R241, R207). -/
  | mvp (dd ss : Byte)
  /-- 0x45 `EOR $nn` (R267, R185). -/
  | eorDp (d : Byte)
  /-- 0x46 `LSR $nn` (R301, R185). -/
  | lsrDp (d : Byte)
  /-- 0x47 `EOR [$nn]` (R267, R191). -/
  | eorIldp (d : Byte)
  /-- 0x49 `EOR #$nn or #$nnnn` (R267, R184). -/
  | eorImm (v : Word)
  /-- 0x4C `JMP $nnnn` (R321, R205). -/
  | jmpJabs (a : Word)
  /-- 0x4D `EOR $nnnn` (R267, R193). -/
  | eorAbs (a : Word)
  /-- 0x4E `LSR $nnnn` (R301, R193). -/
  | lsrAbs (a : Word)
  /-- 0x4F `EOR $nnnnnn` (R267, R196). -/
  | eorLong (a : Address)
  /-- 0x50 `BVC label` (R317, R206). -/
  | bvc (r : Byte)
  /-- 0x51 `EOR ($nn),Y` (R267, R190). -/
  | eorIdpy (d : Byte)
  /-- 0x52 `EOR ($nn)` (R267, R188). -/
  | eorIdp (d : Byte)
  /-- 0x53 `EOR ($nn,S),Y` (R267, R199). -/
  | eorIsry (o : Byte)
  /-- 0x54 `MVN $ss,$dd` (R240, R207). -/
  | mvn (dd ss : Byte)
  /-- 0x55 `EOR $nn,X` (R267, R186). -/
  | eorDpx (d : Byte)
  /-- 0x56 `LSR $nn,X` (R301, R186). -/
  | lsrDpx (d : Byte)
  /-- 0x57 `EOR [$nn],Y` (R267, R192). -/
  | eorIldpy (d : Byte)
  /-- 0x59 `EOR $nnnn,Y` (R267, R195). -/
  | eorAbsy (a : Word)
  /-- 0x5C `JML $nnnnnn` (R322, R205). -/
  | jmlJlong (a : Address)
  /-- 0x5D `EOR $nnnn,X` (R267, R194). -/
  | eorAbsx (a : Word)
  /-- 0x5E `LSR $nnnn,X` (R301, R194). -/
  | lsrAbsx (a : Word)
  /-- 0x5F `EOR $nnnnnn,X` (R267, R197). -/
  | eorLongx (a : Address)
  /-- 0x61 `ADC ($nn,X)` (R260, R189). -/
  | adcIdpx (d : Byte)
  /-- 0x62 `PER label` (R355, R206). -/
  | per (r : Word)
  /-- 0x63 `ADC $nn,S` (R260, R198). -/
  | adcSr (o : Byte)
  /-- 0x64 `STZ $nn` (R226, R185). -/
  | stzDp (d : Byte)
  /-- 0x65 `ADC $nn` (R260, R185). -/
  | adcDp (d : Byte)
  /-- 0x66 `ROR $nn` (R303, R185). -/
  | rorDp (d : Byte)
  /-- 0x67 `ADC [$nn]` (R260, R191). -/
  | adcIldp (d : Byte)
  /-- 0x69 `ADC #$nn or #$nnnn` (R260, R184). -/
  | adcImm (v : Word)
  /-- 0x6C `JMP ($nnnn)` (R321, R202). -/
  | jmpIabs (a : Word)
  /-- 0x6D `ADC $nnnn` (R260, R193). -/
  | adcAbs (a : Word)
  /-- 0x6E `ROR $nnnn` (R303, R193). -/
  | rorAbs (a : Word)
  /-- 0x6F `ADC $nnnnnn` (R260, R196). -/
  | adcLong (a : Address)
  /-- 0x70 `BVS label` (R318, R206). -/
  | bvs (r : Byte)
  /-- 0x71 `ADC ($nn),Y` (R260, R190). -/
  | adcIdpy (d : Byte)
  /-- 0x72 `ADC ($nn)` (R260, R188). -/
  | adcIdp (d : Byte)
  /-- 0x73 `ADC ($nn,S),Y` (R260, R199). -/
  | adcIsry (o : Byte)
  /-- 0x74 `STZ $nn,X` (R226, R186). -/
  | stzDpx (d : Byte)
  /-- 0x75 `ADC $nn,X` (R260, R186). -/
  | adcDpx (d : Byte)
  /-- 0x76 `ROR $nn,X` (R303, R186). -/
  | rorDpx (d : Byte)
  /-- 0x77 `ADC [$nn],Y` (R260, R192). -/
  | adcIldpy (d : Byte)
  /-- 0x79 `ADC $nnnn,Y` (R260, R195). -/
  | adcAbsy (a : Word)
  /-- 0x7C `JMP ($nnnn,X)` (R321, R203). -/
  | jmpIabsx (a : Word)
  /-- 0x7D `ADC $nnnn,X` (R260, R194). -/
  | adcAbsx (a : Word)
  /-- 0x7E `ROR $nnnn,X` (R303, R194). -/
  | rorAbsx (a : Word)
  /-- 0x7F `ADC $nnnnnn,X` (R260, R197). -/
  | adcLongx (a : Address)
  /-- 0x80 `BRA label` (R319, R206). -/
  | bra (r : Byte)
  /-- 0x81 `STA ($nn,X)` (R223, R189). -/
  | staIdpx (d : Byte)
  /-- 0x82 `BRL label` (R320, R206). -/
  | brl (r : Word)
  /-- 0x83 `STA $nn,S` (R223, R198). -/
  | staSr (o : Byte)
  /-- 0x84 `STY $nn` (R225, R185). -/
  | styDp (d : Byte)
  /-- 0x85 `STA $nn` (R223, R185). -/
  | staDp (d : Byte)
  /-- 0x86 `STX $nn` (R224, R185). -/
  | stxDp (d : Byte)
  /-- 0x87 `STA [$nn]` (R223, R191). -/
  | staIldp (d : Byte)
  /-- 0x89 `BIT #$nn or #$nnnn` (R268, R184). -/
  | bitImm (v : Word)
  /-- 0x8C `STY $nnnn` (R225, R193). -/
  | styAbs (a : Word)
  /-- 0x8D `STA $nnnn` (R223, R193). -/
  | staAbs (a : Word)
  /-- 0x8E `STX $nnnn` (R224, R193). -/
  | stxAbs (a : Word)
  /-- 0x8F `STA $nnnnnn` (R223, R196). -/
  | staLong (a : Address)
  /-- 0x90 `BCC label` (R311, R206). -/
  | bcc (r : Byte)
  /-- 0x91 `STA ($nn),Y` (R223, R190). -/
  | staIdpy (d : Byte)
  /-- 0x92 `STA ($nn)` (R223, R188). -/
  | staIdp (d : Byte)
  /-- 0x93 `STA ($nn,S),Y` (R223, R199). -/
  | staIsry (o : Byte)
  /-- 0x94 `STY $nn,X` (R225, R186). -/
  | styDpx (d : Byte)
  /-- 0x95 `STA $nn,X` (R223, R186). -/
  | staDpx (d : Byte)
  /-- 0x96 `STX $nn,Y` (R224, R187). -/
  | stxDpy (d : Byte)
  /-- 0x97 `STA [$nn],Y` (R223, R192). -/
  | staIldpy (d : Byte)
  /-- 0x99 `STA $nnnn,Y` (R223, R195). -/
  | staAbsy (a : Word)
  /-- 0x9C `STZ $nnnn` (R226, R193). -/
  | stzAbs (a : Word)
  /-- 0x9D `STA $nnnn,X` (R223, R194). -/
  | staAbsx (a : Word)
  /-- 0x9E `STZ $nnnn,X` (R226, R194). -/
  | stzAbsx (a : Word)
  /-- 0x9F `STA $nnnnnn,X` (R223, R197). -/
  | staLongx (a : Address)
  /-- 0xA0 `LDY #$nn or #$nnnn` (R222, R184). -/
  | ldyImm (v : Word)
  /-- 0xA1 `LDA ($nn,X)` (R220, R189). -/
  | ldaIdpx (d : Byte)
  /-- 0xA2 `LDX #$nn or #$nnnn` (R221, R184). -/
  | ldxImm (v : Word)
  /-- 0xA3 `LDA $nn,S` (R220, R198). -/
  | ldaSr (o : Byte)
  /-- 0xA4 `LDY $nn` (R222, R185). -/
  | ldyDp (d : Byte)
  /-- 0xA5 `LDA $nn` (R220, R185). -/
  | ldaDp (d : Byte)
  /-- 0xA6 `LDX $nn` (R221, R185). -/
  | ldxDp (d : Byte)
  /-- 0xA7 `LDA [$nn]` (R220, R191). -/
  | ldaIldp (d : Byte)
  /-- 0xA9 `LDA #$nn or #$nnnn` (R220, R184). -/
  | ldaImm (v : Word)
  /-- 0xAC `LDY $nnnn` (R222, R193). -/
  | ldyAbs (a : Word)
  /-- 0xAD `LDA $nnnn` (R220, R193). -/
  | ldaAbs (a : Word)
  /-- 0xAE `LDX $nnnn` (R221, R193). -/
  | ldxAbs (a : Word)
  /-- 0xAF `LDA $nnnnnn` (R220, R196). -/
  | ldaLong (a : Address)
  /-- 0xB0 `BCS label` (R312, R206). -/
  | bcs (r : Byte)
  /-- 0xB1 `LDA ($nn),Y` (R220, R190). -/
  | ldaIdpy (d : Byte)
  /-- 0xB2 `LDA ($nn)` (R220, R188). -/
  | ldaIdp (d : Byte)
  /-- 0xB3 `LDA ($nn,S),Y` (R220, R199). -/
  | ldaIsry (o : Byte)
  /-- 0xB4 `LDY $nn,X` (R222, R186). -/
  | ldyDpx (d : Byte)
  /-- 0xB5 `LDA $nn,X` (R220, R186). -/
  | ldaDpx (d : Byte)
  /-- 0xB6 `LDX $nn,Y` (R221, R187). -/
  | ldxDpy (d : Byte)
  /-- 0xB7 `LDA [$nn],Y` (R220, R192). -/
  | ldaIldpy (d : Byte)
  /-- 0xB9 `LDA $nnnn,Y` (R220, R195). -/
  | ldaAbsy (a : Word)
  /-- 0xBC `LDY $nnnn,X` (R222, R194). -/
  | ldyAbsx (a : Word)
  /-- 0xBD `LDA $nnnn,X` (R220, R194). -/
  | ldaAbsx (a : Word)
  /-- 0xBE `LDX $nnnn,Y` (R221, R195). -/
  | ldxAbsy (a : Word)
  /-- 0xBF `LDA $nnnnnn,X` (R220, R197). -/
  | ldaLongx (a : Address)
  /-- 0xC0 `CPY #$nn or #$nnnn` (R264, R184). -/
  | cpyImm (v : Word)
  /-- 0xC1 `CMP ($nn,X)` (R262, R189). -/
  | cmpIdpx (d : Byte)
  /-- 0xC2 `REP #$nn` (R378, R184). -/
  | rep (mask : Byte)
  /-- 0xC3 `CMP $nn,S` (R262, R198). -/
  | cmpSr (o : Byte)
  /-- 0xC4 `CPY $nn` (R264, R185). -/
  | cpyDp (d : Byte)
  /-- 0xC5 `CMP $nn` (R262, R185). -/
  | cmpDp (d : Byte)
  /-- 0xC6 `DEC $nn` (R272, R185). -/
  | decDp (d : Byte)
  /-- 0xC7 `CMP [$nn]` (R262, R191). -/
  | cmpIldp (d : Byte)
  /-- 0xC9 `CMP #$nn or #$nnnn` (R262, R184). -/
  | cmpImm (v : Word)
  /-- 0xCC `CPY $nnnn` (R264, R193). -/
  | cpyAbs (a : Word)
  /-- 0xCD `CMP $nnnn` (R262, R193). -/
  | cmpAbs (a : Word)
  /-- 0xCE `DEC $nnnn` (R272, R193). -/
  | decAbs (a : Word)
  /-- 0xCF `CMP $nnnnnn` (R262, R196). -/
  | cmpLong (a : Address)
  /-- 0xD0 `BNE label` (R314, R206). -/
  | bne (r : Byte)
  /-- 0xD1 `CMP ($nn),Y` (R262, R190). -/
  | cmpIdpy (d : Byte)
  /-- 0xD2 `CMP ($nn)` (R262, R188). -/
  | cmpIdp (d : Byte)
  /-- 0xD3 `CMP ($nn,S),Y` (R262, R199). -/
  | cmpIsry (o : Byte)
  /-- 0xD4 `PEI ($nn)` (R354, R185). -/
  | pei (d : Byte)
  /-- 0xD5 `CMP $nn,X` (R262, R186). -/
  | cmpDpx (d : Byte)
  /-- 0xD6 `DEC $nn,X` (R272, R186). -/
  | decDpx (d : Byte)
  /-- 0xD7 `CMP [$nn],Y` (R262, R192). -/
  | cmpIldpy (d : Byte)
  /-- 0xD9 `CMP $nnnn,Y` (R262, R195). -/
  | cmpAbsy (a : Word)
  /-- 0xDC `JML [$nnnn]` (R322, R204). -/
  | jmlIlabs (a : Word)
  /-- 0xDD `CMP $nnnn,X` (R262, R194). -/
  | cmpAbsx (a : Word)
  /-- 0xDE `DEC $nnnn,X` (R272, R194). -/
  | decAbsx (a : Word)
  /-- 0xDF `CMP $nnnnnn,X` (R262, R197). -/
  | cmpLongx (a : Address)
  /-- 0xE0 `CPX #$nn or #$nnnn` (R263, R184). -/
  | cpxImm (v : Word)
  /-- 0xE1 `SBC ($nn,X)` (R261, R189). -/
  | sbcIdpx (d : Byte)
  /-- 0xE2 `SEP #$nn` (R379, R184). -/
  | sep (mask : Byte)
  /-- 0xE3 `SBC $nn,S` (R261, R198). -/
  | sbcSr (o : Byte)
  /-- 0xE4 `CPX $nn` (R263, R185). -/
  | cpxDp (d : Byte)
  /-- 0xE5 `SBC $nn` (R261, R185). -/
  | sbcDp (d : Byte)
  /-- 0xE6 `INC $nn` (R271, R185). -/
  | incDp (d : Byte)
  /-- 0xE7 `SBC [$nn]` (R261, R191). -/
  | sbcIldp (d : Byte)
  /-- 0xE9 `SBC #$nn or #$nnnn` (R261, R184). -/
  | sbcImm (v : Word)
  /-- 0xEC `CPX $nnnn` (R263, R193). -/
  | cpxAbs (a : Word)
  /-- 0xED `SBC $nnnn` (R261, R193). -/
  | sbcAbs (a : Word)
  /-- 0xEE `INC $nnnn` (R271, R193). -/
  | incAbs (a : Word)
  /-- 0xEF `SBC $nnnnnn` (R261, R196). -/
  | sbcLong (a : Address)
  /-- 0xF0 `BEQ label` (R313, R206). -/
  | beq (r : Byte)
  /-- 0xF1 `SBC ($nn),Y` (R261, R190). -/
  | sbcIdpy (d : Byte)
  /-- 0xF2 `SBC ($nn)` (R261, R188). -/
  | sbcIdp (d : Byte)
  /-- 0xF3 `SBC ($nn,S),Y` (R261, R199). -/
  | sbcIsry (o : Byte)
  /-- 0xF4 `PEA $nnnn` (R353, R184). -/
  | pea (v : Word)
  /-- 0xF5 `SBC $nn,X` (R261, R186). -/
  | sbcDpx (d : Byte)
  /-- 0xF6 `INC $nn,X` (R271, R186). -/
  | incDpx (d : Byte)
  /-- 0xF7 `SBC [$nn],Y` (R261, R192). -/
  | sbcIldpy (d : Byte)
  /-- 0xF9 `SBC $nnnn,Y` (R261, R195). -/
  | sbcAbsy (a : Word)
  /-- 0xFC `JSR ($nnnn,X)` (R323, R203). -/
  | jsrIabsx (a : Word)
  /-- 0xFD `SBC $nnnn,X` (R261, R194). -/
  | sbcAbsx (a : Word)
  /-- 0xFE `INC $nnnn,X` (R271, R194). -/
  | incAbsx (a : Word)
  /-- 0xFF `SBC $nnnnnn,X` (R261, R197). -/
  | sbcLongx (a : Address)
  /-- 0x08 `PHP` (R344, R201). -/
  | php
  /-- 0x0A `ASL A` (R300, R200). -/
  | aslAcc
  /-- 0x0B `PHD` (R342, R201). -/
  | phd
  /-- 0x18 `CLC` (R371, R201). -/
  | clc
  /-- 0x1A `INC A` (R271, R200). -/
  | incAcc
  /-- 0x1B `TCS` (R235, R201). -/
  | tcs
  /-- 0x28 `PLP` (R350, R201). -/
  | plp
  /-- 0x2A `ROL A` (R302, R200). -/
  | rolAcc
  /-- 0x2B `PLD` (R349, R201). -/
  | pld
  /-- 0x38 `SEC` (R375, R201). -/
  | sec
  /-- 0x3A `DEC A` (R272, R200). -/
  | decAcc
  /-- 0x3B `TSC` (R236, R201). -/
  | tsc
  /-- 0x40 `RTI` (R383, R201). -/
  | rti
  /-- 0x48 `PHA` (R340, R201). -/
  | pha
  /-- 0x4A `LSR A` (R301, R200). -/
  | lsrAcc
  /-- 0x4B `PHK` (R343, R201). -/
  | phk
  /-- 0x58 `CLI` (R373, R201). -/
  | cli
  /-- 0x5A `PHY` (R346, R201). -/
  | phy
  /-- 0x5B `TCD` (R237, R201). -/
  | tcd
  /-- 0x60 `RTS` (R325, R201). -/
  | rts
  /-- 0x68 `PLA` (R347, R201). -/
  | pla
  /-- 0x6A `ROR A` (R303, R200). -/
  | rorAcc
  /-- 0x6B `RTL` (R326, R201). -/
  | rtl
  /-- 0x78 `SEI` (R377, R201). -/
  | sei
  /-- 0x7A `PLY` (R352, R201). -/
  | ply
  /-- 0x7B `TDC` (R238, R201). -/
  | tdc
  /-- 0x88 `DEY` (R276, R201). -/
  | dey
  /-- 0x8A `TXA` (R229, R201). -/
  | txa
  /-- 0x8B `PHB` (R341, R201). -/
  | phb
  /-- 0x98 `TYA` (R230, R201). -/
  | tya
  /-- 0x9A `TXS` (R234, R201). -/
  | txs
  /-- 0x9B `TXY` (R231, R201). -/
  | txy
  /-- 0xA8 `TAY` (R228, R201). -/
  | tay
  /-- 0xAA `TAX` (R227, R201). -/
  | tax
  /-- 0xAB `PLB` (R348, R201). -/
  | plb
  /-- 0xB8 `CLV` (R374, R201). -/
  | clv
  /-- 0xBA `TSX` (R233, R201). -/
  | tsx
  /-- 0xBB `TYX` (R232, R201). -/
  | tyx
  /-- 0xC8 `INY` (R274, R201). -/
  | iny
  /-- 0xCA `DEX` (R275, R201). -/
  | dex
  /-- 0xCB `WAI` (R384, R201). -/
  | wai
  /-- 0xD8 `CLD` (R372, R201). -/
  | cld
  /-- 0xDA `PHX` (R345, R201). -/
  | phx
  /-- 0xDB `STP` (R385, R201). -/
  | stp
  /-- 0xE8 `INX` (R273, R201). -/
  | inx
  /-- 0xEA `NOP` (R386, R201). -/
  | nop
  /-- 0xEB `XBA` (R239, R201). -/
  | xba
  /-- 0xF8 `SED` (R376, R201). -/
  | sed
  /-- 0xFA `PLX` (R351, R201). -/
  | plx
  /-- 0xFB `XCE` (R380, R201). -/
  | xce
deriving DecidableEq, Repr

end Sys2Proof
end

