-- ==== Sys2Proof/Machine/Dispatch.lean ====
section
/-! DEFINITION. The dispatch table: each instruction to its meaning (40_core_loop.md R154). The arms
stand in the order of the opcode map. -/

namespace Sys2Proof.Machine

/-- Runs one decoded instruction on the state its operand fetch left (40_core_loop.md R154, R156). -/
def exec (i : Instr) (s : State) : Host.Outcome State Fault Refusal :=
  match i with
  | .brk sig => Sys2Proof.Machine.execBrk sig s
  | .oraIdpx d => Sys2Proof.Machine.execOraIdpx d s
  | .cop sig => Sys2Proof.Machine.execCop sig s
  | .oraSr o => Sys2Proof.Machine.execOraSr o s
  | .tsbDp d => Sys2Proof.Machine.execTsbDp d s
  | .oraDp d => Sys2Proof.Machine.execOraDp d s
  | .aslDp d => Sys2Proof.Machine.execAslDp d s
  | .oraIldp d => Sys2Proof.Machine.execOraIldp d s
  | .php => Sys2Proof.Machine.execPhp s
  | .oraImm v => Sys2Proof.Machine.execOraImm v s
  | .aslAcc => Sys2Proof.Machine.execAslAcc s
  | .phd => Sys2Proof.Machine.execPhd s
  | .tsbAbs a => Sys2Proof.Machine.execTsbAbs a s
  | .oraAbs a => Sys2Proof.Machine.execOraAbs a s
  | .aslAbs a => Sys2Proof.Machine.execAslAbs a s
  | .oraLong a => Sys2Proof.Machine.execOraLong a s
  | .bpl r => Sys2Proof.Machine.execBpl r s
  | .oraIdpy d => Sys2Proof.Machine.execOraIdpy d s
  | .oraIdp d => Sys2Proof.Machine.execOraIdp d s
  | .oraIsry o => Sys2Proof.Machine.execOraIsry o s
  | .trbDp d => Sys2Proof.Machine.execTrbDp d s
  | .oraDpx d => Sys2Proof.Machine.execOraDpx d s
  | .aslDpx d => Sys2Proof.Machine.execAslDpx d s
  | .oraIldpy d => Sys2Proof.Machine.execOraIldpy d s
  | .clc => Sys2Proof.Machine.execClc s
  | .oraAbsy a => Sys2Proof.Machine.execOraAbsy a s
  | .incAcc => Sys2Proof.Machine.execIncAcc s
  | .tcs => Sys2Proof.Machine.execTcs s
  | .trbAbs a => Sys2Proof.Machine.execTrbAbs a s
  | .oraAbsx a => Sys2Proof.Machine.execOraAbsx a s
  | .aslAbsx a => Sys2Proof.Machine.execAslAbsx a s
  | .oraLongx a => Sys2Proof.Machine.execOraLongx a s
  | .jsrJabs a => Sys2Proof.Machine.execJsrJabs a s
  | .andIdpx d => Sys2Proof.Machine.execAndIdpx d s
  | .jsl a => Sys2Proof.Machine.execJsl a s
  | .andSr o => Sys2Proof.Machine.execAndSr o s
  | .bitDp d => Sys2Proof.Machine.execBitDp d s
  | .andDp d => Sys2Proof.Machine.execAndDp d s
  | .rolDp d => Sys2Proof.Machine.execRolDp d s
  | .andIldp d => Sys2Proof.Machine.execAndIldp d s
  | .plp => Sys2Proof.Machine.execPlp s
  | .andImm v => Sys2Proof.Machine.execAndImm v s
  | .rolAcc => Sys2Proof.Machine.execRolAcc s
  | .pld => Sys2Proof.Machine.execPld s
  | .bitAbs a => Sys2Proof.Machine.execBitAbs a s
  | .andAbs a => Sys2Proof.Machine.execAndAbs a s
  | .rolAbs a => Sys2Proof.Machine.execRolAbs a s
  | .andLong a => Sys2Proof.Machine.execAndLong a s
  | .bmi r => Sys2Proof.Machine.execBmi r s
  | .andIdpy d => Sys2Proof.Machine.execAndIdpy d s
  | .andIdp d => Sys2Proof.Machine.execAndIdp d s
  | .andIsry o => Sys2Proof.Machine.execAndIsry o s
  | .bitDpx d => Sys2Proof.Machine.execBitDpx d s
  | .andDpx d => Sys2Proof.Machine.execAndDpx d s
  | .rolDpx d => Sys2Proof.Machine.execRolDpx d s
  | .andIldpy d => Sys2Proof.Machine.execAndIldpy d s
  | .sec => Sys2Proof.Machine.execSec s
  | .andAbsy a => Sys2Proof.Machine.execAndAbsy a s
  | .decAcc => Sys2Proof.Machine.execDecAcc s
  | .tsc => Sys2Proof.Machine.execTsc s
  | .bitAbsx a => Sys2Proof.Machine.execBitAbsx a s
  | .andAbsx a => Sys2Proof.Machine.execAndAbsx a s
  | .rolAbsx a => Sys2Proof.Machine.execRolAbsx a s
  | .andLongx a => Sys2Proof.Machine.execAndLongx a s
  | .rti => Sys2Proof.Machine.execRti s
  | .eorIdpx d => Sys2Proof.Machine.execEorIdpx d s
  | .wdm sig => Sys2Proof.Machine.execWdm sig s
  | .eorSr o => Sys2Proof.Machine.execEorSr o s
  | .mvp dd ss => Sys2Proof.Machine.execMvp dd ss s
  | .eorDp d => Sys2Proof.Machine.execEorDp d s
  | .lsrDp d => Sys2Proof.Machine.execLsrDp d s
  | .eorIldp d => Sys2Proof.Machine.execEorIldp d s
  | .pha => Sys2Proof.Machine.execPha s
  | .eorImm v => Sys2Proof.Machine.execEorImm v s
  | .lsrAcc => Sys2Proof.Machine.execLsrAcc s
  | .phk => Sys2Proof.Machine.execPhk s
  | .jmpJabs a => Sys2Proof.Machine.execJmpJabs a s
  | .eorAbs a => Sys2Proof.Machine.execEorAbs a s
  | .lsrAbs a => Sys2Proof.Machine.execLsrAbs a s
  | .eorLong a => Sys2Proof.Machine.execEorLong a s
  | .bvc r => Sys2Proof.Machine.execBvc r s
  | .eorIdpy d => Sys2Proof.Machine.execEorIdpy d s
  | .eorIdp d => Sys2Proof.Machine.execEorIdp d s
  | .eorIsry o => Sys2Proof.Machine.execEorIsry o s
  | .mvn dd ss => Sys2Proof.Machine.execMvn dd ss s
  | .eorDpx d => Sys2Proof.Machine.execEorDpx d s
  | .lsrDpx d => Sys2Proof.Machine.execLsrDpx d s
  | .eorIldpy d => Sys2Proof.Machine.execEorIldpy d s
  | .cli => Sys2Proof.Machine.execCli s
  | .eorAbsy a => Sys2Proof.Machine.execEorAbsy a s
  | .phy => Sys2Proof.Machine.execPhy s
  | .tcd => Sys2Proof.Machine.execTcd s
  | .jmlJlong a => Sys2Proof.Machine.execJmlJlong a s
  | .eorAbsx a => Sys2Proof.Machine.execEorAbsx a s
  | .lsrAbsx a => Sys2Proof.Machine.execLsrAbsx a s
  | .eorLongx a => Sys2Proof.Machine.execEorLongx a s
  | .rts => Sys2Proof.Machine.execRts s
  | .adcIdpx d => Sys2Proof.Machine.execAdcIdpx d s
  | .per r => Sys2Proof.Machine.execPer r s
  | .adcSr o => Sys2Proof.Machine.execAdcSr o s
  | .stzDp d => Sys2Proof.Machine.execStzDp d s
  | .adcDp d => Sys2Proof.Machine.execAdcDp d s
  | .rorDp d => Sys2Proof.Machine.execRorDp d s
  | .adcIldp d => Sys2Proof.Machine.execAdcIldp d s
  | .pla => Sys2Proof.Machine.execPla s
  | .adcImm v => Sys2Proof.Machine.execAdcImm v s
  | .rorAcc => Sys2Proof.Machine.execRorAcc s
  | .rtl => Sys2Proof.Machine.execRtl s
  | .jmpIabs a => Sys2Proof.Machine.execJmpIabs a s
  | .adcAbs a => Sys2Proof.Machine.execAdcAbs a s
  | .rorAbs a => Sys2Proof.Machine.execRorAbs a s
  | .adcLong a => Sys2Proof.Machine.execAdcLong a s
  | .bvs r => Sys2Proof.Machine.execBvs r s
  | .adcIdpy d => Sys2Proof.Machine.execAdcIdpy d s
  | .adcIdp d => Sys2Proof.Machine.execAdcIdp d s
  | .adcIsry o => Sys2Proof.Machine.execAdcIsry o s
  | .stzDpx d => Sys2Proof.Machine.execStzDpx d s
  | .adcDpx d => Sys2Proof.Machine.execAdcDpx d s
  | .rorDpx d => Sys2Proof.Machine.execRorDpx d s
  | .adcIldpy d => Sys2Proof.Machine.execAdcIldpy d s
  | .sei => Sys2Proof.Machine.execSei s
  | .adcAbsy a => Sys2Proof.Machine.execAdcAbsy a s
  | .ply => Sys2Proof.Machine.execPly s
  | .tdc => Sys2Proof.Machine.execTdc s
  | .jmpIabsx a => Sys2Proof.Machine.execJmpIabsx a s
  | .adcAbsx a => Sys2Proof.Machine.execAdcAbsx a s
  | .rorAbsx a => Sys2Proof.Machine.execRorAbsx a s
  | .adcLongx a => Sys2Proof.Machine.execAdcLongx a s
  | .bra r => Sys2Proof.Machine.execBra r s
  | .staIdpx d => Sys2Proof.Machine.execStaIdpx d s
  | .brl r => Sys2Proof.Machine.execBrl r s
  | .staSr o => Sys2Proof.Machine.execStaSr o s
  | .styDp d => Sys2Proof.Machine.execStyDp d s
  | .staDp d => Sys2Proof.Machine.execStaDp d s
  | .stxDp d => Sys2Proof.Machine.execStxDp d s
  | .staIldp d => Sys2Proof.Machine.execStaIldp d s
  | .dey => Sys2Proof.Machine.execDey s
  | .bitImm v => Sys2Proof.Machine.execBitImm v s
  | .txa => Sys2Proof.Machine.execTxa s
  | .phb => Sys2Proof.Machine.execPhb s
  | .styAbs a => Sys2Proof.Machine.execStyAbs a s
  | .staAbs a => Sys2Proof.Machine.execStaAbs a s
  | .stxAbs a => Sys2Proof.Machine.execStxAbs a s
  | .staLong a => Sys2Proof.Machine.execStaLong a s
  | .bcc r => Sys2Proof.Machine.execBcc r s
  | .staIdpy d => Sys2Proof.Machine.execStaIdpy d s
  | .staIdp d => Sys2Proof.Machine.execStaIdp d s
  | .staIsry o => Sys2Proof.Machine.execStaIsry o s
  | .styDpx d => Sys2Proof.Machine.execStyDpx d s
  | .staDpx d => Sys2Proof.Machine.execStaDpx d s
  | .stxDpy d => Sys2Proof.Machine.execStxDpy d s
  | .staIldpy d => Sys2Proof.Machine.execStaIldpy d s
  | .tya => Sys2Proof.Machine.execTya s
  | .staAbsy a => Sys2Proof.Machine.execStaAbsy a s
  | .txs => Sys2Proof.Machine.execTxs s
  | .txy => Sys2Proof.Machine.execTxy s
  | .stzAbs a => Sys2Proof.Machine.execStzAbs a s
  | .staAbsx a => Sys2Proof.Machine.execStaAbsx a s
  | .stzAbsx a => Sys2Proof.Machine.execStzAbsx a s
  | .staLongx a => Sys2Proof.Machine.execStaLongx a s
  | .ldyImm v => Sys2Proof.Machine.execLdyImm v s
  | .ldaIdpx d => Sys2Proof.Machine.execLdaIdpx d s
  | .ldxImm v => Sys2Proof.Machine.execLdxImm v s
  | .ldaSr o => Sys2Proof.Machine.execLdaSr o s
  | .ldyDp d => Sys2Proof.Machine.execLdyDp d s
  | .ldaDp d => Sys2Proof.Machine.execLdaDp d s
  | .ldxDp d => Sys2Proof.Machine.execLdxDp d s
  | .ldaIldp d => Sys2Proof.Machine.execLdaIldp d s
  | .tay => Sys2Proof.Machine.execTay s
  | .ldaImm v => Sys2Proof.Machine.execLdaImm v s
  | .tax => Sys2Proof.Machine.execTax s
  | .plb => Sys2Proof.Machine.execPlb s
  | .ldyAbs a => Sys2Proof.Machine.execLdyAbs a s
  | .ldaAbs a => Sys2Proof.Machine.execLdaAbs a s
  | .ldxAbs a => Sys2Proof.Machine.execLdxAbs a s
  | .ldaLong a => Sys2Proof.Machine.execLdaLong a s
  | .bcs r => Sys2Proof.Machine.execBcs r s
  | .ldaIdpy d => Sys2Proof.Machine.execLdaIdpy d s
  | .ldaIdp d => Sys2Proof.Machine.execLdaIdp d s
  | .ldaIsry o => Sys2Proof.Machine.execLdaIsry o s
  | .ldyDpx d => Sys2Proof.Machine.execLdyDpx d s
  | .ldaDpx d => Sys2Proof.Machine.execLdaDpx d s
  | .ldxDpy d => Sys2Proof.Machine.execLdxDpy d s
  | .ldaIldpy d => Sys2Proof.Machine.execLdaIldpy d s
  | .clv => Sys2Proof.Machine.execClv s
  | .ldaAbsy a => Sys2Proof.Machine.execLdaAbsy a s
  | .tsx => Sys2Proof.Machine.execTsx s
  | .tyx => Sys2Proof.Machine.execTyx s
  | .ldyAbsx a => Sys2Proof.Machine.execLdyAbsx a s
  | .ldaAbsx a => Sys2Proof.Machine.execLdaAbsx a s
  | .ldxAbsy a => Sys2Proof.Machine.execLdxAbsy a s
  | .ldaLongx a => Sys2Proof.Machine.execLdaLongx a s
  | .cpyImm v => Sys2Proof.Machine.execCpyImm v s
  | .cmpIdpx d => Sys2Proof.Machine.execCmpIdpx d s
  | .rep mask => Sys2Proof.Machine.execRep mask s
  | .cmpSr o => Sys2Proof.Machine.execCmpSr o s
  | .cpyDp d => Sys2Proof.Machine.execCpyDp d s
  | .cmpDp d => Sys2Proof.Machine.execCmpDp d s
  | .decDp d => Sys2Proof.Machine.execDecDp d s
  | .cmpIldp d => Sys2Proof.Machine.execCmpIldp d s
  | .iny => Sys2Proof.Machine.execIny s
  | .cmpImm v => Sys2Proof.Machine.execCmpImm v s
  | .dex => Sys2Proof.Machine.execDex s
  | .wai => Sys2Proof.Machine.execWai s
  | .cpyAbs a => Sys2Proof.Machine.execCpyAbs a s
  | .cmpAbs a => Sys2Proof.Machine.execCmpAbs a s
  | .decAbs a => Sys2Proof.Machine.execDecAbs a s
  | .cmpLong a => Sys2Proof.Machine.execCmpLong a s
  | .bne r => Sys2Proof.Machine.execBne r s
  | .cmpIdpy d => Sys2Proof.Machine.execCmpIdpy d s
  | .cmpIdp d => Sys2Proof.Machine.execCmpIdp d s
  | .cmpIsry o => Sys2Proof.Machine.execCmpIsry o s
  | .pei d => Sys2Proof.Machine.execPei d s
  | .cmpDpx d => Sys2Proof.Machine.execCmpDpx d s
  | .decDpx d => Sys2Proof.Machine.execDecDpx d s
  | .cmpIldpy d => Sys2Proof.Machine.execCmpIldpy d s
  | .cld => Sys2Proof.Machine.execCld s
  | .cmpAbsy a => Sys2Proof.Machine.execCmpAbsy a s
  | .phx => Sys2Proof.Machine.execPhx s
  | .stp => Sys2Proof.Machine.execStp s
  | .jmlIlabs a => Sys2Proof.Machine.execJmlIlabs a s
  | .cmpAbsx a => Sys2Proof.Machine.execCmpAbsx a s
  | .decAbsx a => Sys2Proof.Machine.execDecAbsx a s
  | .cmpLongx a => Sys2Proof.Machine.execCmpLongx a s
  | .cpxImm v => Sys2Proof.Machine.execCpxImm v s
  | .sbcIdpx d => Sys2Proof.Machine.execSbcIdpx d s
  | .sep mask => Sys2Proof.Machine.execSep mask s
  | .sbcSr o => Sys2Proof.Machine.execSbcSr o s
  | .cpxDp d => Sys2Proof.Machine.execCpxDp d s
  | .sbcDp d => Sys2Proof.Machine.execSbcDp d s
  | .incDp d => Sys2Proof.Machine.execIncDp d s
  | .sbcIldp d => Sys2Proof.Machine.execSbcIldp d s
  | .inx => Sys2Proof.Machine.execInx s
  | .sbcImm v => Sys2Proof.Machine.execSbcImm v s
  | .nop => Sys2Proof.Machine.execNop s
  | .xba => Sys2Proof.Machine.execXba s
  | .cpxAbs a => Sys2Proof.Machine.execCpxAbs a s
  | .sbcAbs a => Sys2Proof.Machine.execSbcAbs a s
  | .incAbs a => Sys2Proof.Machine.execIncAbs a s
  | .sbcLong a => Sys2Proof.Machine.execSbcLong a s
  | .beq r => Sys2Proof.Machine.execBeq r s
  | .sbcIdpy d => Sys2Proof.Machine.execSbcIdpy d s
  | .sbcIdp d => Sys2Proof.Machine.execSbcIdp d s
  | .sbcIsry o => Sys2Proof.Machine.execSbcIsry o s
  | .pea v => Sys2Proof.Machine.execPea v s
  | .sbcDpx d => Sys2Proof.Machine.execSbcDpx d s
  | .incDpx d => Sys2Proof.Machine.execIncDpx d s
  | .sbcIldpy d => Sys2Proof.Machine.execSbcIldpy d s
  | .sed => Sys2Proof.Machine.execSed s
  | .sbcAbsy a => Sys2Proof.Machine.execSbcAbsy a s
  | .plx => Sys2Proof.Machine.execPlx s
  | .xce => Sys2Proof.Machine.execXce s
  | .jsrIabsx a => Sys2Proof.Machine.execJsrIabsx a s
  | .sbcAbsx a => Sys2Proof.Machine.execSbcAbsx a s
  | .incAbsx a => Sys2Proof.Machine.execIncAbsx a s
  | .sbcLongx a => Sys2Proof.Machine.execSbcLongx a s

end Sys2Proof.Machine
end

