-- ==== Sys2Proof/WellFormed.lean ====
section
/-! DEFINITION. Which instruction terms the encoding can hold at given widths
(30_encoding.md R124, R129). The operands' types already bound every field but one: an immediate
of an `immm` or `immx` row has one byte when its width is 8. -/

namespace Sys2Proof

/-- An immediate fits the operand bytes its row has: one byte when narrow, two when wide (R124).
DESIGN CHOICE (log entry 9): the term holds 16 bits at either width. -/
def immediateFits (narrow : Bool) (v : Word) : Bool := !narrow || v.toNat < 256

/-- The instruction has an encoding when the accumulator is 8 bits wide (`m8`) or not and the index
is 8 bits wide (`x8`) or not. -/
def Instr.wf (m8 x8 : Bool) (i : Instr) : Bool :=
  match i with
  | .oraImm v => immediateFits m8 v
  | .andImm v => immediateFits m8 v
  | .eorImm v => immediateFits m8 v
  | .adcImm v => immediateFits m8 v
  | .bitImm v => immediateFits m8 v
  | .ldaImm v => immediateFits m8 v
  | .cmpImm v => immediateFits m8 v
  | .sbcImm v => immediateFits m8 v
  | .ldyImm v => immediateFits x8 v
  | .ldxImm v => immediateFits x8 v
  | .cpyImm v => immediateFits x8 v
  | .cpxImm v => immediateFits x8 v
  | .brk _ | .oraIdpx _ | .cop _ | .oraSr _ | .tsbDp _ | .oraDp _ | .aslDp _ | .oraIldp _ | .php
  | .aslAcc | .phd | .tsbAbs _ | .oraAbs _ | .aslAbs _ | .oraLong _ | .bpl _ | .oraIdpy _
  | .oraIdp _ | .oraIsry _ | .trbDp _ | .oraDpx _ | .aslDpx _ | .oraIldpy _ | .clc | .oraAbsy _
  | .incAcc | .tcs | .trbAbs _ | .oraAbsx _ | .aslAbsx _ | .oraLongx _ | .jsrJabs _ | .andIdpx _
  | .jsl _ | .andSr _ | .bitDp _ | .andDp _ | .rolDp _ | .andIldp _ | .plp | .rolAcc | .pld
  | .bitAbs _ | .andAbs _ | .rolAbs _ | .andLong _ | .bmi _ | .andIdpy _ | .andIdp _ | .andIsry _
  | .bitDpx _ | .andDpx _ | .rolDpx _ | .andIldpy _ | .sec | .andAbsy _ | .decAcc | .tsc
  | .bitAbsx _ | .andAbsx _ | .rolAbsx _ | .andLongx _ | .rti | .eorIdpx _ | .wdm _ | .eorSr _
  | .mvp _ _ | .eorDp _ | .lsrDp _ | .eorIldp _ | .pha | .lsrAcc | .phk | .jmpJabs _ | .eorAbs _
  | .lsrAbs _ | .eorLong _ | .bvc _ | .eorIdpy _ | .eorIdp _ | .eorIsry _ | .mvn _ _ | .eorDpx _
  | .lsrDpx _ | .eorIldpy _ | .cli | .eorAbsy _ | .phy | .tcd | .jmlJlong _ | .eorAbsx _
  | .lsrAbsx _ | .eorLongx _ | .rts | .adcIdpx _ | .per _ | .adcSr _ | .stzDp _ | .adcDp _
  | .rorDp _ | .adcIldp _ | .pla | .rorAcc | .rtl | .jmpIabs _ | .adcAbs _ | .rorAbs _
  | .adcLong _ | .bvs _ | .adcIdpy _ | .adcIdp _ | .adcIsry _ | .stzDpx _ | .adcDpx _ | .rorDpx _
  | .adcIldpy _ | .sei | .adcAbsy _ | .ply | .tdc | .jmpIabsx _ | .adcAbsx _ | .rorAbsx _
  | .adcLongx _ | .bra _ | .staIdpx _ | .brl _ | .staSr _ | .styDp _ | .staDp _ | .stxDp _
  | .staIldp _ | .dey | .txa | .phb | .styAbs _ | .staAbs _ | .stxAbs _ | .staLong _ | .bcc _
  | .staIdpy _ | .staIdp _ | .staIsry _ | .styDpx _ | .staDpx _ | .stxDpy _ | .staIldpy _ | .tya
  | .staAbsy _ | .txs | .txy | .stzAbs _ | .staAbsx _ | .stzAbsx _ | .staLongx _ | .ldaIdpx _
  | .ldaSr _ | .ldyDp _ | .ldaDp _ | .ldxDp _ | .ldaIldp _ | .tay | .tax | .plb | .ldyAbs _
  | .ldaAbs _ | .ldxAbs _ | .ldaLong _ | .bcs _ | .ldaIdpy _ | .ldaIdp _ | .ldaIsry _ | .ldyDpx _
  | .ldaDpx _ | .ldxDpy _ | .ldaIldpy _ | .clv | .ldaAbsy _ | .tsx | .tyx | .ldyAbsx _
  | .ldaAbsx _ | .ldxAbsy _ | .ldaLongx _ | .cmpIdpx _ | .rep _ | .cmpSr _ | .cpyDp _ | .cmpDp _
  | .decDp _ | .cmpIldp _ | .iny | .dex | .wai | .cpyAbs _ | .cmpAbs _ | .decAbs _ | .cmpLong _
  | .bne _ | .cmpIdpy _ | .cmpIdp _ | .cmpIsry _ | .pei _ | .cmpDpx _ | .decDpx _ | .cmpIldpy _
  | .cld | .cmpAbsy _ | .phx | .stp | .jmlIlabs _ | .cmpAbsx _ | .decAbsx _ | .cmpLongx _
  | .sbcIdpx _ | .sep _ | .sbcSr _ | .cpxDp _ | .sbcDp _ | .incDp _ | .sbcIldp _ | .inx | .nop
  | .xba | .cpxAbs _ | .sbcAbs _ | .incAbs _ | .sbcLong _ | .beq _ | .sbcIdpy _ | .sbcIdp _
  | .sbcIsry _ | .pea _ | .sbcDpx _ | .incDpx _ | .sbcIldpy _ | .sed | .sbcAbsy _ | .plx | .xce
  | .jsrIabsx _ | .sbcAbsx _ | .incAbsx _ | .sbcLongx _ => true

end Sys2Proof
end

