-- ==== Sys2Proof/Decode.lean ====
section
/-! DEFINITION. The decoder, total over the 256 opcode bytes (30_encoding.md R129, R132), and after
it the encoder. The opcode map is written row by row as R130 prints it; the encoder is written from
the opcode table, one row after another. -/

namespace Sys2Proof

open Sys2Proof.Machine

/-- What stands behind one opcode byte: how many operand bytes its format has (R121) and the
instruction they make. -/
inductive Entry where
  /-- `imp`, `acc`: no operand byte. -/
  | none (i : Instr)
  /-- One operand byte: `imm8`, `sig`, the direct-page and stack formats, `rel8`. -/
  | byte (f : Byte → Instr)
  /-- Two operand bytes: `imm16`, the 16-bit address formats, `rel16`. -/
  | word (f : Word → Instr)
  /-- Three operand bytes: `long`, `longx`, `jlong`. -/
  | long (f : Address → Instr)
  /-- `immm`: one or two operand bytes by `wm` (R124). -/
  | immM (f : Word → Instr)
  /-- `immx`: one or two operand bytes by `wx` (R124). -/
  | immX (f : Word → Instr)
  /-- `blk`: the destination bank, then the source bank (R127). -/
  | blk (f : Byte → Byte → Instr)

/-- Row 0x of the opcode map (R130). -/
def opcodeRow0 : List Entry :=
  [.byte .brk, .byte .oraIdpx, .byte .cop, .byte .oraSr,
   .byte .tsbDp, .byte .oraDp, .byte .aslDp, .byte .oraIldp,
   .none .php, .immM .oraImm, .none .aslAcc, .none .phd,
   .word .tsbAbs, .word .oraAbs, .word .aslAbs, .long .oraLong]

/-- Row 1x of the opcode map (R130). -/
def opcodeRow1 : List Entry :=
  [.byte .bpl, .byte .oraIdpy, .byte .oraIdp, .byte .oraIsry,
   .byte .trbDp, .byte .oraDpx, .byte .aslDpx, .byte .oraIldpy,
   .none .clc, .word .oraAbsy, .none .incAcc, .none .tcs,
   .word .trbAbs, .word .oraAbsx, .word .aslAbsx, .long .oraLongx]

/-- Row 2x of the opcode map (R130). -/
def opcodeRow2 : List Entry :=
  [.word .jsrJabs, .byte .andIdpx, .long .jsl, .byte .andSr,
   .byte .bitDp, .byte .andDp, .byte .rolDp, .byte .andIldp,
   .none .plp, .immM .andImm, .none .rolAcc, .none .pld,
   .word .bitAbs, .word .andAbs, .word .rolAbs, .long .andLong]

/-- Row 3x of the opcode map (R130). -/
def opcodeRow3 : List Entry :=
  [.byte .bmi, .byte .andIdpy, .byte .andIdp, .byte .andIsry,
   .byte .bitDpx, .byte .andDpx, .byte .rolDpx, .byte .andIldpy,
   .none .sec, .word .andAbsy, .none .decAcc, .none .tsc,
   .word .bitAbsx, .word .andAbsx, .word .rolAbsx, .long .andLongx]

/-- Row 4x of the opcode map (R130). -/
def opcodeRow4 : List Entry :=
  [.none .rti, .byte .eorIdpx, .byte .wdm, .byte .eorSr,
   .blk .mvp, .byte .eorDp, .byte .lsrDp, .byte .eorIldp,
   .none .pha, .immM .eorImm, .none .lsrAcc, .none .phk,
   .word .jmpJabs, .word .eorAbs, .word .lsrAbs, .long .eorLong]

/-- Row 5x of the opcode map (R130). -/
def opcodeRow5 : List Entry :=
  [.byte .bvc, .byte .eorIdpy, .byte .eorIdp, .byte .eorIsry,
   .blk .mvn, .byte .eorDpx, .byte .lsrDpx, .byte .eorIldpy,
   .none .cli, .word .eorAbsy, .none .phy, .none .tcd,
   .long .jmlJlong, .word .eorAbsx, .word .lsrAbsx, .long .eorLongx]

/-- Row 6x of the opcode map (R130). -/
def opcodeRow6 : List Entry :=
  [.none .rts, .byte .adcIdpx, .word .per, .byte .adcSr,
   .byte .stzDp, .byte .adcDp, .byte .rorDp, .byte .adcIldp,
   .none .pla, .immM .adcImm, .none .rorAcc, .none .rtl,
   .word .jmpIabs, .word .adcAbs, .word .rorAbs, .long .adcLong]

/-- Row 7x of the opcode map (R130). -/
def opcodeRow7 : List Entry :=
  [.byte .bvs, .byte .adcIdpy, .byte .adcIdp, .byte .adcIsry,
   .byte .stzDpx, .byte .adcDpx, .byte .rorDpx, .byte .adcIldpy,
   .none .sei, .word .adcAbsy, .none .ply, .none .tdc,
   .word .jmpIabsx, .word .adcAbsx, .word .rorAbsx, .long .adcLongx]

/-- Row 8x of the opcode map (R130). -/
def opcodeRow8 : List Entry :=
  [.byte .bra, .byte .staIdpx, .word .brl, .byte .staSr,
   .byte .styDp, .byte .staDp, .byte .stxDp, .byte .staIldp,
   .none .dey, .immM .bitImm, .none .txa, .none .phb,
   .word .styAbs, .word .staAbs, .word .stxAbs, .long .staLong]

/-- Row 9x of the opcode map (R130). -/
def opcodeRow9 : List Entry :=
  [.byte .bcc, .byte .staIdpy, .byte .staIdp, .byte .staIsry,
   .byte .styDpx, .byte .staDpx, .byte .stxDpy, .byte .staIldpy,
   .none .tya, .word .staAbsy, .none .txs, .none .txy,
   .word .stzAbs, .word .staAbsx, .word .stzAbsx, .long .staLongx]

/-- Row Ax of the opcode map (R130). -/
def opcodeRowA : List Entry :=
  [.immX .ldyImm, .byte .ldaIdpx, .immX .ldxImm, .byte .ldaSr,
   .byte .ldyDp, .byte .ldaDp, .byte .ldxDp, .byte .ldaIldp,
   .none .tay, .immM .ldaImm, .none .tax, .none .plb,
   .word .ldyAbs, .word .ldaAbs, .word .ldxAbs, .long .ldaLong]

/-- Row Bx of the opcode map (R130). -/
def opcodeRowB : List Entry :=
  [.byte .bcs, .byte .ldaIdpy, .byte .ldaIdp, .byte .ldaIsry,
   .byte .ldyDpx, .byte .ldaDpx, .byte .ldxDpy, .byte .ldaIldpy,
   .none .clv, .word .ldaAbsy, .none .tsx, .none .tyx,
   .word .ldyAbsx, .word .ldaAbsx, .word .ldxAbsy, .long .ldaLongx]

/-- Row Cx of the opcode map (R130). -/
def opcodeRowC : List Entry :=
  [.immX .cpyImm, .byte .cmpIdpx, .byte .rep, .byte .cmpSr,
   .byte .cpyDp, .byte .cmpDp, .byte .decDp, .byte .cmpIldp,
   .none .iny, .immM .cmpImm, .none .dex, .none .wai,
   .word .cpyAbs, .word .cmpAbs, .word .decAbs, .long .cmpLong]

/-- Row Dx of the opcode map (R130). -/
def opcodeRowD : List Entry :=
  [.byte .bne, .byte .cmpIdpy, .byte .cmpIdp, .byte .cmpIsry,
   .byte .pei, .byte .cmpDpx, .byte .decDpx, .byte .cmpIldpy,
   .none .cld, .word .cmpAbsy, .none .phx, .none .stp,
   .word .jmlIlabs, .word .cmpAbsx, .word .decAbsx, .long .cmpLongx]

/-- Row Ex of the opcode map (R130). -/
def opcodeRowE : List Entry :=
  [.immX .cpxImm, .byte .sbcIdpx, .byte .sep, .byte .sbcSr,
   .byte .cpxDp, .byte .sbcDp, .byte .incDp, .byte .sbcIldp,
   .none .inx, .immM .sbcImm, .none .nop, .none .xba,
   .word .cpxAbs, .word .sbcAbs, .word .incAbs, .long .sbcLong]

/-- Row Fx of the opcode map (R130). -/
def opcodeRowF : List Entry :=
  [.byte .beq, .byte .sbcIdpy, .byte .sbcIdp, .byte .sbcIsry,
   .word .pea, .byte .sbcDpx, .byte .incDpx, .byte .sbcIldpy,
   .none .sed, .word .sbcAbsy, .none .plx, .none .xce,
   .word .jsrIabsx, .word .sbcAbsx, .word .incAbsx, .long .sbcLongx]

/-- The opcode map (R130): 256 entries, indexed by the opcode byte (40_core_loop.md R154). -/
def opcodeMap : List Entry :=
  opcodeRow0 ++ opcodeRow1 ++ opcodeRow2 ++ opcodeRow3 ++ opcodeRow4 ++ opcodeRow5 ++ opcodeRow6 ++
  opcodeRow7 ++ opcodeRow8 ++ opcodeRow9 ++ opcodeRowA ++ opcodeRowB ++ opcodeRowC ++ opcodeRowD ++
  opcodeRowE ++ opcodeRowF

/-- The map has an entry for every byte value (R132, 40_core_loop.md R154). -/
theorem opcodeMap_length : opcodeMap.length = 256 := by decide +kernel

/-- The entry of an opcode byte. -/
def opcodeEntry (op : Byte) : Entry :=
  opcodeMap[op.toNat]'(by rw [opcodeMap_length]; exact op.isLt)

/-- How many operand bytes the entry's format has (R121, R129). -/
def Entry.operandCount (m8 x8 : Bool) (e : Entry) : Nat :=
  match e with
  | .none _ => 0
  | .byte _ => 1
  | .word _ => 2
  | .long _ => 3
  | .immM _ => if m8 then 1 else 2
  | .immX _ => if x8 then 1 else 2
  | .blk _  => 2

/-- The instruction the entry makes of its operand bytes (R123). An immediate of one byte has no
second byte, and its value is that byte (R124). -/
def Entry.build (e : Entry) (args : List Byte) : Instr :=
  let b1 := args.getD 0 0
  let b2 := args.getD 1 0
  let b3 := args.getD 2 0
  match e with
  | .none i => i
  | .byte f => f b1
  | .word f => f (joinBytes b2 b1)
  | .long f => f (mkAddress b3 (joinBytes b2 b1))
  | .immM f => f (joinBytes b2 b1)
  | .immX f => f (joinBytes b2 b1)
  | .blk f  => f b1 b2

/-- How many operand bytes follow an opcode byte (R129). -/
def operandCount (m8 x8 : Bool) (op : Byte) : Nat := (opcodeEntry op).operandCount m8 x8

/-- The instruction of an opcode byte and its operand bytes. -/
def decodeInstr (op : Byte) (args : List Byte) : Instr := (opcodeEntry op).build args

/-- Why a list of bytes is no instruction: no opcode byte is illegal (R132), so only a list that ends
too early is rejected. -/
inductive DecodeError where
  /-- There is no opcode byte. -/
  | noOpcode
  /-- The opcode's format has `want` operand bytes and the list has `have_`. -/
  | truncated (op : Byte) (want have_ : Nat)
deriving DecidableEq, Repr

/-- Reads one instruction off the front of a list of bytes, at the given widths (R129), and answers
the bytes left over. -/
def decode (m8 x8 : Bool) (bytes : List Byte) : Except DecodeError (Instr × List Byte) :=
  match bytes with
  | [] => .error .noOpcode
  | op :: rest =>
    let n := operandCount m8 x8 op
    if rest.length < n then .error (.truncated op n rest.length)
    else .ok (decodeInstr op (rest.take n), rest.drop n)

/-- The four bytes of a table word of `nbits` bits, lowest first: bit 0 is bit 0 of the opcode byte,
and every bit from `nbits` up is 0. -/
def tableBytes (nbits w : Nat) : List Byte :=
  [0, 1, 2, 3].map fun k => BitVec.ofNat 8 ((w % 2 ^ nbits) / 256 ^ k)

/-- The instruction the decoder reads from a row of the opcode table. DESIGN CHOICE (log entry 11):
immediates are read at the 8-bit widths, those of the state after reset. -/
def decodeTableWord (nbits w : Nat) : Option Instr :=
  match decode true true (tableBytes nbits w) with
  | .ok (i, _) => some i
  | .error _ => none

/-- The operand bytes of an instruction, before its width is known. -/
inductive Operands where
  | none
  | byte (b : Byte)
  | word (v : Word)
  | long (a : Address)
  | immM (v : Word)
  | immX (v : Word)
  | blk (dd ss : Byte)
deriving DecidableEq, Repr

/-- The operand bytes in fetch order, little-endian (R121, R123, R124). -/
def Operands.bytes (m8 x8 : Bool) (o : Operands) : List Byte :=
  match o with
  | .none => []
  | .byte b => [b]
  | .word v => [lowByte v, highByte v]
  | .long a => [lowByte (offsetOf a), highByte (offsetOf a), bankOf a]
  | .immM v => if m8 then [lowByte v] else [lowByte v, highByte v]
  | .immX v => if x8 then [lowByte v] else [lowByte v, highByte v]
  | .blk dd ss => [dd, ss]

/-- The opcode byte and the operands of each instruction (30_encoding.md R121; the encoding tables of
files 42 to 47). -/
def Instr.encoded (i : Instr) : Byte × Operands :=
  match i with
  | .brk sig => (0x00, .byte sig)
  | .oraIdpx d => (0x01, .byte d)
  | .cop sig => (0x02, .byte sig)
  | .oraSr o => (0x03, .byte o)
  | .tsbDp d => (0x04, .byte d)
  | .oraDp d => (0x05, .byte d)
  | .aslDp d => (0x06, .byte d)
  | .oraIldp d => (0x07, .byte d)
  | .php => (0x08, .none)
  | .oraImm v => (0x09, .immM v)
  | .aslAcc => (0x0A, .none)
  | .phd => (0x0B, .none)
  | .tsbAbs a => (0x0C, .word a)
  | .oraAbs a => (0x0D, .word a)
  | .aslAbs a => (0x0E, .word a)
  | .oraLong a => (0x0F, .long a)
  | .bpl r => (0x10, .byte r)
  | .oraIdpy d => (0x11, .byte d)
  | .oraIdp d => (0x12, .byte d)
  | .oraIsry o => (0x13, .byte o)
  | .trbDp d => (0x14, .byte d)
  | .oraDpx d => (0x15, .byte d)
  | .aslDpx d => (0x16, .byte d)
  | .oraIldpy d => (0x17, .byte d)
  | .clc => (0x18, .none)
  | .oraAbsy a => (0x19, .word a)
  | .incAcc => (0x1A, .none)
  | .tcs => (0x1B, .none)
  | .trbAbs a => (0x1C, .word a)
  | .oraAbsx a => (0x1D, .word a)
  | .aslAbsx a => (0x1E, .word a)
  | .oraLongx a => (0x1F, .long a)
  | .jsrJabs a => (0x20, .word a)
  | .andIdpx d => (0x21, .byte d)
  | .jsl a => (0x22, .long a)
  | .andSr o => (0x23, .byte o)
  | .bitDp d => (0x24, .byte d)
  | .andDp d => (0x25, .byte d)
  | .rolDp d => (0x26, .byte d)
  | .andIldp d => (0x27, .byte d)
  | .plp => (0x28, .none)
  | .andImm v => (0x29, .immM v)
  | .rolAcc => (0x2A, .none)
  | .pld => (0x2B, .none)
  | .bitAbs a => (0x2C, .word a)
  | .andAbs a => (0x2D, .word a)
  | .rolAbs a => (0x2E, .word a)
  | .andLong a => (0x2F, .long a)
  | .bmi r => (0x30, .byte r)
  | .andIdpy d => (0x31, .byte d)
  | .andIdp d => (0x32, .byte d)
  | .andIsry o => (0x33, .byte o)
  | .bitDpx d => (0x34, .byte d)
  | .andDpx d => (0x35, .byte d)
  | .rolDpx d => (0x36, .byte d)
  | .andIldpy d => (0x37, .byte d)
  | .sec => (0x38, .none)
  | .andAbsy a => (0x39, .word a)
  | .decAcc => (0x3A, .none)
  | .tsc => (0x3B, .none)
  | .bitAbsx a => (0x3C, .word a)
  | .andAbsx a => (0x3D, .word a)
  | .rolAbsx a => (0x3E, .word a)
  | .andLongx a => (0x3F, .long a)
  | .rti => (0x40, .none)
  | .eorIdpx d => (0x41, .byte d)
  | .wdm sig => (0x42, .byte sig)
  | .eorSr o => (0x43, .byte o)
  | .mvp dd ss => (0x44, .blk dd ss)
  | .eorDp d => (0x45, .byte d)
  | .lsrDp d => (0x46, .byte d)
  | .eorIldp d => (0x47, .byte d)
  | .pha => (0x48, .none)
  | .eorImm v => (0x49, .immM v)
  | .lsrAcc => (0x4A, .none)
  | .phk => (0x4B, .none)
  | .jmpJabs a => (0x4C, .word a)
  | .eorAbs a => (0x4D, .word a)
  | .lsrAbs a => (0x4E, .word a)
  | .eorLong a => (0x4F, .long a)
  | .bvc r => (0x50, .byte r)
  | .eorIdpy d => (0x51, .byte d)
  | .eorIdp d => (0x52, .byte d)
  | .eorIsry o => (0x53, .byte o)
  | .mvn dd ss => (0x54, .blk dd ss)
  | .eorDpx d => (0x55, .byte d)
  | .lsrDpx d => (0x56, .byte d)
  | .eorIldpy d => (0x57, .byte d)
  | .cli => (0x58, .none)
  | .eorAbsy a => (0x59, .word a)
  | .phy => (0x5A, .none)
  | .tcd => (0x5B, .none)
  | .jmlJlong a => (0x5C, .long a)
  | .eorAbsx a => (0x5D, .word a)
  | .lsrAbsx a => (0x5E, .word a)
  | .eorLongx a => (0x5F, .long a)
  | .rts => (0x60, .none)
  | .adcIdpx d => (0x61, .byte d)
  | .per r => (0x62, .word r)
  | .adcSr o => (0x63, .byte o)
  | .stzDp d => (0x64, .byte d)
  | .adcDp d => (0x65, .byte d)
  | .rorDp d => (0x66, .byte d)
  | .adcIldp d => (0x67, .byte d)
  | .pla => (0x68, .none)
  | .adcImm v => (0x69, .immM v)
  | .rorAcc => (0x6A, .none)
  | .rtl => (0x6B, .none)
  | .jmpIabs a => (0x6C, .word a)
  | .adcAbs a => (0x6D, .word a)
  | .rorAbs a => (0x6E, .word a)
  | .adcLong a => (0x6F, .long a)
  | .bvs r => (0x70, .byte r)
  | .adcIdpy d => (0x71, .byte d)
  | .adcIdp d => (0x72, .byte d)
  | .adcIsry o => (0x73, .byte o)
  | .stzDpx d => (0x74, .byte d)
  | .adcDpx d => (0x75, .byte d)
  | .rorDpx d => (0x76, .byte d)
  | .adcIldpy d => (0x77, .byte d)
  | .sei => (0x78, .none)
  | .adcAbsy a => (0x79, .word a)
  | .ply => (0x7A, .none)
  | .tdc => (0x7B, .none)
  | .jmpIabsx a => (0x7C, .word a)
  | .adcAbsx a => (0x7D, .word a)
  | .rorAbsx a => (0x7E, .word a)
  | .adcLongx a => (0x7F, .long a)
  | .bra r => (0x80, .byte r)
  | .staIdpx d => (0x81, .byte d)
  | .brl r => (0x82, .word r)
  | .staSr o => (0x83, .byte o)
  | .styDp d => (0x84, .byte d)
  | .staDp d => (0x85, .byte d)
  | .stxDp d => (0x86, .byte d)
  | .staIldp d => (0x87, .byte d)
  | .dey => (0x88, .none)
  | .bitImm v => (0x89, .immM v)
  | .txa => (0x8A, .none)
  | .phb => (0x8B, .none)
  | .styAbs a => (0x8C, .word a)
  | .staAbs a => (0x8D, .word a)
  | .stxAbs a => (0x8E, .word a)
  | .staLong a => (0x8F, .long a)
  | .bcc r => (0x90, .byte r)
  | .staIdpy d => (0x91, .byte d)
  | .staIdp d => (0x92, .byte d)
  | .staIsry o => (0x93, .byte o)
  | .styDpx d => (0x94, .byte d)
  | .staDpx d => (0x95, .byte d)
  | .stxDpy d => (0x96, .byte d)
  | .staIldpy d => (0x97, .byte d)
  | .tya => (0x98, .none)
  | .staAbsy a => (0x99, .word a)
  | .txs => (0x9A, .none)
  | .txy => (0x9B, .none)
  | .stzAbs a => (0x9C, .word a)
  | .staAbsx a => (0x9D, .word a)
  | .stzAbsx a => (0x9E, .word a)
  | .staLongx a => (0x9F, .long a)
  | .ldyImm v => (0xA0, .immX v)
  | .ldaIdpx d => (0xA1, .byte d)
  | .ldxImm v => (0xA2, .immX v)
  | .ldaSr o => (0xA3, .byte o)
  | .ldyDp d => (0xA4, .byte d)
  | .ldaDp d => (0xA5, .byte d)
  | .ldxDp d => (0xA6, .byte d)
  | .ldaIldp d => (0xA7, .byte d)
  | .tay => (0xA8, .none)
  | .ldaImm v => (0xA9, .immM v)
  | .tax => (0xAA, .none)
  | .plb => (0xAB, .none)
  | .ldyAbs a => (0xAC, .word a)
  | .ldaAbs a => (0xAD, .word a)
  | .ldxAbs a => (0xAE, .word a)
  | .ldaLong a => (0xAF, .long a)
  | .bcs r => (0xB0, .byte r)
  | .ldaIdpy d => (0xB1, .byte d)
  | .ldaIdp d => (0xB2, .byte d)
  | .ldaIsry o => (0xB3, .byte o)
  | .ldyDpx d => (0xB4, .byte d)
  | .ldaDpx d => (0xB5, .byte d)
  | .ldxDpy d => (0xB6, .byte d)
  | .ldaIldpy d => (0xB7, .byte d)
  | .clv => (0xB8, .none)
  | .ldaAbsy a => (0xB9, .word a)
  | .tsx => (0xBA, .none)
  | .tyx => (0xBB, .none)
  | .ldyAbsx a => (0xBC, .word a)
  | .ldaAbsx a => (0xBD, .word a)
  | .ldxAbsy a => (0xBE, .word a)
  | .ldaLongx a => (0xBF, .long a)
  | .cpyImm v => (0xC0, .immX v)
  | .cmpIdpx d => (0xC1, .byte d)
  | .rep mask => (0xC2, .byte mask)
  | .cmpSr o => (0xC3, .byte o)
  | .cpyDp d => (0xC4, .byte d)
  | .cmpDp d => (0xC5, .byte d)
  | .decDp d => (0xC6, .byte d)
  | .cmpIldp d => (0xC7, .byte d)
  | .iny => (0xC8, .none)
  | .cmpImm v => (0xC9, .immM v)
  | .dex => (0xCA, .none)
  | .wai => (0xCB, .none)
  | .cpyAbs a => (0xCC, .word a)
  | .cmpAbs a => (0xCD, .word a)
  | .decAbs a => (0xCE, .word a)
  | .cmpLong a => (0xCF, .long a)
  | .bne r => (0xD0, .byte r)
  | .cmpIdpy d => (0xD1, .byte d)
  | .cmpIdp d => (0xD2, .byte d)
  | .cmpIsry o => (0xD3, .byte o)
  | .pei d => (0xD4, .byte d)
  | .cmpDpx d => (0xD5, .byte d)
  | .decDpx d => (0xD6, .byte d)
  | .cmpIldpy d => (0xD7, .byte d)
  | .cld => (0xD8, .none)
  | .cmpAbsy a => (0xD9, .word a)
  | .phx => (0xDA, .none)
  | .stp => (0xDB, .none)
  | .jmlIlabs a => (0xDC, .word a)
  | .cmpAbsx a => (0xDD, .word a)
  | .decAbsx a => (0xDE, .word a)
  | .cmpLongx a => (0xDF, .long a)
  | .cpxImm v => (0xE0, .immX v)
  | .sbcIdpx d => (0xE1, .byte d)
  | .sep mask => (0xE2, .byte mask)
  | .sbcSr o => (0xE3, .byte o)
  | .cpxDp d => (0xE4, .byte d)
  | .sbcDp d => (0xE5, .byte d)
  | .incDp d => (0xE6, .byte d)
  | .sbcIldp d => (0xE7, .byte d)
  | .inx => (0xE8, .none)
  | .sbcImm v => (0xE9, .immM v)
  | .nop => (0xEA, .none)
  | .xba => (0xEB, .none)
  | .cpxAbs a => (0xEC, .word a)
  | .sbcAbs a => (0xED, .word a)
  | .incAbs a => (0xEE, .word a)
  | .sbcLong a => (0xEF, .long a)
  | .beq r => (0xF0, .byte r)
  | .sbcIdpy d => (0xF1, .byte d)
  | .sbcIdp d => (0xF2, .byte d)
  | .sbcIsry o => (0xF3, .byte o)
  | .pea v => (0xF4, .word v)
  | .sbcDpx d => (0xF5, .byte d)
  | .incDpx d => (0xF6, .byte d)
  | .sbcIldpy d => (0xF7, .byte d)
  | .sed => (0xF8, .none)
  | .sbcAbsy a => (0xF9, .word a)
  | .plx => (0xFA, .none)
  | .xce => (0xFB, .none)
  | .jsrIabsx a => (0xFC, .word a)
  | .sbcAbsx a => (0xFD, .word a)
  | .incAbsx a => (0xFE, .word a)
  | .sbcLongx a => (0xFF, .long a)

/-- The opcode byte of an instruction. -/
def Instr.opcode (i : Instr) : Byte := i.encoded.1

/-- The words of an instruction at the given widths: the opcode byte and its operand bytes. -/
def encode (m8 x8 : Bool) (i : Instr) : List Byte :=
  i.opcode :: i.encoded.2.bytes m8 x8

end Sys2Proof
end

