-- ==== Sys2Proof/Machine/Fetch.lean ====
section
/-! DEFINITION. Fetching an instruction's bytes and decoding them (40_core_loop.md R153, R154;
30_encoding.md R122, R129), and the placing of bytes where the next fetch reads them. -/

namespace Sys2Proof.Machine

/-- Reads `n` operand bytes in order from `bank:offset`; the offset wraps within the bank
(30_encoding.md R122). -/
def fetchBytes (bank : Byte) (offset : Word) (n : Nat) (b : Bus) : BusRead (List Byte) :=
  match n with
  | 0     => { val := [], bus := b }
  | k + 1 =>
    let r := b.readByte (mkAddress bank offset)
    let rest := fetchBytes bank (offset + 1) k r.bus
    { val := r.val :: rest.val, bus := rest.bus }

/-- The fetch: the opcode byte at the program address (40_core_loop.md R153), then its operand bytes
at the widths in force (30_encoding.md R122, R124), decoded. The program address does not move
(R153); the reads may change device state. -/
def State.fetch (s : State) : Got Instr :=
  let op := s.bus.readByte s.programAddress
  let n := operandCount s.accIs8 s.indexIs8 op.val
  let args := fetchBytes s.pbr (s.pc + 1) n op.bus
  { val := decodeInstr op.val args.val, st := s.withBus args.bus }

/-- The bus with a byte placed where a read of the address finds it: in the RAM device that claims
the address, else in a new one-byte RAM device ahead of the others. DESIGN CHOICE (log entry 14): it
stands for loading a program from outside, not for an action of the machine. -/
def Bus.placeByte (b : Bus) (a : Address) (v : Byte) : Bus :=
  match b.resolve a with
  | some { dev := .ram _ _ _, .. } => b.storeByte a v
  | _ => { devices := .ram a.toNat a.toNat (Memory.write [] a.toNat v) :: b.devices }

/-- Bytes placed one after another from `bank:offset`, wrapping within the bank as the fetch does. -/
def Bus.placeBytes (b : Bus) (bank : Byte) (offset : Word) (bytes : List Byte) : Bus :=
  match bytes with
  | []        => b
  | v :: rest => (b.placeByte (mkAddress bank offset) v).placeBytes bank (offset + 1) rest

end Sys2Proof.Machine
end

