-- ==== Sys2Proof/Machine/Step.lean ====
section
/-! DEFINITION. One step of the machine: one call of `executeNextInstruction()`
(40_core_loop.md R150). -/

namespace Sys2Proof.Machine

/-- One call of `executeNextInstruction()` (R150): nothing while RES is held (R151) or the core waits or
is stopped (R152); otherwise one instruction is fetched and run to completion (R153, R154, R157). The
result the call returns is `State.executeNextInstruction` of HostOps.lean (log entry 8). -/
def step (s : State) : Host.Outcome State Fault Refusal :=
  if s.res then .next s
  else if s.run ≠ .running then .next s
  else exec s.fetch.val s.fetch.st

/-- The state with a table word stored where the next fetch reads it, RES released and the core
running, so that the next step runs that instruction (log entries 4 and 14). -/
def State.withFetchWord (s : State) (nbits w : Nat) : State :=
  { s with
    bus := s.bus.placeBytes s.pbr s.pc (tableBytes nbits w)
    res := false
    run := .running }

end Sys2Proof.Machine
end

