-- ==== Sys2Proof/Machine/HostOps.lean ====
section
/-! DEFINITION. What the host may do to the block between core calls (40_core_loop.md R172), and the
end of a run (R173). None of it is a step of the machine. -/

namespace Sys2Proof.Machine

/-! ### Construction -/

/-- The registers at construction, which the spec leaves at any value (10_state.md R52). -/
structure PowerOn where
  c   : Word
  x   : Word
  y   : Word
  d   : Word
  sp  : Word
  dbr : Byte
  pbr : Byte
  pc  : Word
  p   : Byte
  e   : Bool
deriving DecidableEq, Repr

/-- The core as constructed (10_state.md R52): the registers as they come, the pins at their initial
values, no cycles, running, an empty device list. Construction does not reset
(70_reset_and_hazards.md R450). -/
def State.construct (k : Config) (r : PowerOn) : State where
  c      := r.c
  x      := r.x
  y      := r.y
  d      := r.d
  sp     := r.sp
  dbr    := r.dbr
  pbr    := r.pbr
  pc     := r.pc
  p      := r.p
  e      := r.e
  cycles := 0
  res    := k.resInit
  rdy    := k.rdyInit
  run    := .running
  bus    := { devices := [] }
  cfg    := k

/-! ### Pins, registers and devices -/

/-- `setRESPin` (R158): releasing the pin resets, once. -/
def State.setRESPin (s : State) (v : Bool) : State :=
  { (if s.res ∧ ¬v then s.performReset else s) with res := v }

/-- `setRDYPin` (R159): the pin is recorded and nothing else. -/
def State.setRDYPin (s : State) (v : Bool) : State := { s with rdy := v }

/-- The registers that have a getter and a setter (R168). -/
inductive Register where
  | c | x | y | d | s | dbr | pbr | pc
deriving DecidableEq, Repr

/-- A register's getter (R168, R169). -/
def State.getRegister (s : State) (r : Register) : Nat :=
  match r with
  | .c   => s.c.toNat
  | .x   => s.x.toNat
  | .y   => s.y.toNat
  | .d   => s.d.toNat
  | .s   => s.sp.toNat
  | .dbr => s.dbr.toNat
  | .pbr => s.pbr.toNat
  | .pc  => s.pc.toNat

/-- A register's setter: the value truncated to the register's width, no masking by mode and no side
effect (R168). -/
def State.setRegister (s : State) (r : Register) (v : Nat) : State :=
  match r with
  | .c   => { s with c := BitVec.ofNat 16 v }
  | .x   => { s with x := BitVec.ofNat 16 v }
  | .y   => { s with y := BitVec.ofNat 16 v }
  | .d   => { s with d := BitVec.ofNat 16 v }
  | .s   => { s with sp := BitVec.ofNat 16 v }
  | .dbr => { s with dbr := BitVec.ofNat 8 v }
  | .pbr => { s with pbr := BitVec.ofNat 8 v }
  | .pc  => { s with pc := BitVec.ofNat 16 v }

/-- The emulation flag's setter (R168). -/
def State.setE (s : State) (v : Bool) : State := { s with e := v }

/-- A device's own state: the bytes of a RAM device, or the number another device's state is. -/
inductive DeviceState where
  | cells (bytes : List Host.Cell)
  | other (state : Nat)
deriving DecidableEq, Repr

/-- The state a device is in, as the host reads it between core calls (60_exceptions.md R433). -/
def Device.state (d : Device) : DeviceState :=
  match d with
  | .ram _ _ cells => .cells cells
  | .external _ n  => .other n

/-- A device with its state changed by the host, its decode as before (20_memory.md R75, R99); a state
of the wrong sort changes nothing. -/
def Device.withState (d : Device) (st : DeviceState) : Device :=
  match d, st with
  | .ram lo hi _, .cells bytes => .ram lo hi (Memory.ofCells bytes)
  | .external id _, .other n   => .external id n
  | d, _                       => d

/-- The bus with the state of the device at one place of the list changed. -/
def Bus.withDeviceState (b : Bus) (i : Nat) (st : DeviceState) : Bus :=
  { devices := b.devices.modify i fun d => d.withState st }

/-- The state of the device at one place of the list, nothing past its end (60_exceptions.md R433). -/
def Bus.deviceState (b : Bus) (i : Nat) : Option DeviceState := b.devices[i]?.map Device.state

/-! ### Execution -/

/-- `executeNextInstruction()` with its result (R150, R151, R152, R171): false while RES is held or the
core is not running, and false from the instruction that ends running (WAI, STP); else true. -/
def State.executeNextInstruction (s : State) : Bool × State :=
  match step s with
  | .next t    => (!s.res && s.run == .running && t.run == .running, t)
  | .fault _   => (false, s)
  | .refused _ => (false, s)

/-- A run of at most `fuel` calls, which ends at the first call that returns false (R173): how many
calls were made, and the state at the end. -/
def State.runCalls (fuel : Nat) (s : State) : Nat × State :=
  match fuel with
  | 0 => (0, s)
  | n + 1 =>
    let r := s.executeNextInstruction
    if r.1 then
      let rest := r.2.runCalls n
      (rest.1 + 1, rest.2)
    else (1, r.2)

/-! ### The host's actions -/

/-- Everything the host may do once the core is constructed (R172). Each piece of state has a getter, the
pins, the run state and the devices' states among them (R168; 60_exceptions.md R433), so Waiting and
Stopped can be told apart (47_status_system.md R385). -/
inductive HostAction where
  | registerDevice (d : Device)
  | setRESPin (v : Bool)
  | setRDYPin (v : Bool)
  | reset
  | executeNextInstruction
  | getRegister (r : Register)
  | setRegister (r : Register) (v : Nat)
  | getFlag (f : Flag)
  | setFlag (f : Flag) (v : Bool)
  | getE
  | setE (v : Bool)
  | getCycles
  | getRES
  | getRDY
  | getRun
  | getDeviceState (i : Nat)
  | readByte (a : Address)
  | storeByte (a : Address) (v : Byte)
  | readTwoBytes (a : Address)
  | storeTwoBytes (a : Address) (v : Word)
  | readAddressAt (a : Address)
  | setDeviceState (i : Nat) (st : DeviceState)
deriving DecidableEq, Repr

/-- What the host gets back (R172). -/
inductive HostResult where
  | nothing
  | bool (v : Bool)
  | nat (v : Nat)
  | int (v : Int)
  | run (v : RunState)
  | deviceState (v : Option DeviceState)
  | byte (v : Byte)
  | word (v : Word)
  | address (v : Address)
deriving DecidableEq, Repr

/-- One action of the host (R172). -/
def HostAction.apply (h : HostAction) (s : State) : HostResult × State :=
  match h with
  | .registerDevice d       => (.nothing, s.withBus (s.bus.registerDevice d))
  | .setRESPin v            => (.nothing, s.setRESPin v)
  | .setRDYPin v            => (.nothing, s.setRDYPin v)
  | .reset                  => (.nothing, s.performReset)
  | .executeNextInstruction => (.bool s.executeNextInstruction.1, s.executeNextInstruction.2)
  | .getRegister r          => (.nat (s.getRegister r), s)
  | .setRegister r v        => (.nothing, s.setRegister r v)
  | .getFlag f              => (.bool (s.flag f), s)
  | .setFlag f v            => (.nothing, s.setFlag f v)
  | .getE                   => (.bool s.e, s)
  | .setE v                 => (.nothing, s.setE v)
  | .getCycles              => (.int s.cycles, s)
  | .getRES                 => (.bool s.res, s)
  | .getRDY                 => (.bool s.rdy, s)
  | .getRun                 => (.run s.run, s)
  | .getDeviceState i       => (.deviceState (s.bus.deviceState i), s)
  | .readByte a             => (.byte (s.read8 a).val, (s.read8 a).st)
  | .storeByte a v          => (.nothing, s.write8 a v)
  | .readTwoBytes a         => (.word (s.bus.readTwoBytes a).val, s.withBus (s.bus.readTwoBytes a).bus)
  | .storeTwoBytes a v      => (.nothing, s.withBus (s.bus.storeTwoBytes a v))
  | .readAddressAt a        => (.address (s.bus.readAddressAt a).val, s.withBus (s.bus.readAddressAt a).bus)
  | .setDeviceState i st    => (.nothing, s.withBus (s.bus.withDeviceState i st))

end Sys2Proof.Machine
end

