-- ==== Sys2Proof/Safety/Rules.lean ====
section
/-! DEFINITION. Vocabulary of the claims, not of the machine: the sums of ADC and SBC as
43_arith_logic.md R260 and R261 print them, over unbounded integers with the bitwise operators of
00_scope.md R8, and binary-coded decimal numbers. -/

namespace Sys2Proof.Machine

/-- What a sum rule decides: the value modulo `2^w`, `P.V` and `P.C`. -/
structure RuleSum where
  value    : Int
  overflow : Bool
  carry    : Bool

/-- `msb_w(~(a ^ b) & (a ^ r))` (R260, R261). -/
def ruleOverflow (w : Nat) (a b r : Int) : Bool :=
  ((Int.lnot (a.xor b)).land (a.xor r)).testBit (w - 1)

/-- The line of both loops that adds digit `j` (R260, R261). -/
def ruleDigit (a b r : Int) (j : Nat) : Int :=
  let cy : Int := if r > 16 ^ j - 1 then 1 else 0
  a.land (0xF * 16 ^ j) + b.land (0xF * 16 ^ j) + cy * 16 ^ j + r.land (16 ^ j - 1)

/-- The pseudocode of R260, line by line, at width `w` with `P.D` and `P.C` given. -/
def adcRule (w : Nat) (decimal : Bool) (a b carry : Int) : RuleSum :=
  let n := w / 4
  let r : Int :=
    if decimal then
      (List.range' 1 (n - 1)).foldl
        (fun r j =>
          ruleDigit a b (if r > 10 * 16 ^ (j - 1) - 1 then r + 6 * 16 ^ (j - 1) else r) j)
        (a.land 0xF + b.land 0xF + carry)
    else a + b + carry
  let final : Int :=
    if decimal = true ∧ r > 10 * 16 ^ (n - 1) - 1 then r + 6 * 16 ^ (n - 1) else r
  { value := final % 2 ^ w, overflow := ruleOverflow w a b r, carry := decide (final > 2 ^ w - 1) }

/-- The pseudocode of R261, line by line; `b` is `b'`, the ones' complement of the operand. -/
def sbcRule (w : Nat) (decimal : Bool) (a b carry : Int) : RuleSum :=
  let n := w / 4
  let r : Int :=
    if decimal then
      (List.range' 1 (n - 1)).foldl
        (fun r j => ruleDigit a b (if r ≤ 16 ^ j - 1 then r - 6 * 16 ^ (j - 1) else r) j)
        (a.land 0xF + b.land 0xF + carry)
    else a + b + carry
  let final : Int :=
    if decimal = true ∧ r ≤ 2 ^ w - 1 then r - 6 * 16 ^ (n - 1) else r
  { value := final % 2 ^ w, overflow := ruleOverflow w a b r, carry := decide (final > 2 ^ w - 1) }

/-- The four decimal digits of a word, lowest first. -/
def decimalDigits (v : Word) : List Nat := [0, 1, 2, 3].map fun j => v.toNat / 16 ^ j % 16

/-- Every digit of a word is one of 0 to 9. -/
def isDecimal (v : Word) : Prop := ∀ d ∈ decimalDigits v, d < 10

/-- The number a binary-coded decimal word stands for. -/
def decimalValue (v : Word) : Nat := ((decimalDigits v).zipIdx.map fun d => d.1 * 10 ^ d.2).sum

end Sys2Proof.Machine
end

