-- ==== Sys2Proof/Safety/Shape.lean ====
section
/-! DEFINITION. Vocabulary of the claims, not of the machine: which instructions have one shape (a mnemonic
with an operand), and the cycle cost of an instruction as the table of 70_reset_and_hazards.md
R470 to R472 gives it by opcode byte. -/

namespace Sys2Proof.Machine

/-- The instructions that put a result into the accumulator (42_load_store_transfer.md R220;
43_arith_logic.md R260, R261, R265 to R267). -/
inductive AccOp where
  | lda | adc | sbc | and | ora | eor
deriving DecidableEq, Repr

/-- What CMP, CPX and CPY compare (43_arith_logic.md R262 to R264). -/
inductive CompareReg where
  | a | x | y
deriving DecidableEq, Repr

/-- What STA, STX, STY and STZ store (42_load_store_transfer.md R223 to R226). -/
inductive StoreReg where
  | a | x | y | zero
deriving DecidableEq, Repr

/-- The read-modify-write instructions (41_addressing.md R211). -/
inductive ModifyOp where
  | asl | lsr | rol | ror | inc | dec | tsb | trb
deriving DecidableEq, Repr

/-- A mnemonic that has operands, with its operand. -/
inductive Shape where
  | acc (op : AccOp) (o : Operand)
  | loadX (o : Operand)
  | loadY (o : Operand)
  | compare (r : CompareReg) (o : Operand)
  | bit (o : Operand)
  | store (r : StoreReg) (m : MemMode)
  | modify (op : ModifyOp) (m : MemMode)
  | modifyA (op : ModifyOp)
  /-- A branch on a flag being as given, or (BRA) always, with its displacement. -/
  | branch (cond : Option (Flag × Bool)) (r : Byte)
  /-- Every other instruction: its claims name it. -/
  | other
deriving DecidableEq, Repr

end Sys2Proof.Machine

namespace Sys2Proof

open Sys2Proof.Machine

/-- The shape of each instruction, from its mnemonic and format (30_encoding.md R130). -/
def Instr.shape (i : Instr) : Shape :=
  match i with
  | .oraIdpx d => .acc .ora (.mem (.idpx d))
  | .oraSr o => .acc .ora (.mem (.sr o))
  | .tsbDp d => .modify .tsb (.dp d)
  | .oraDp d => .acc .ora (.mem (.dp d))
  | .aslDp d => .modify .asl (.dp d)
  | .oraIldp d => .acc .ora (.mem (.ildp d))
  | .oraImm v => .acc .ora (.imm v)
  | .aslAcc => .modifyA .asl
  | .tsbAbs a => .modify .tsb (.abs a)
  | .oraAbs a => .acc .ora (.mem (.abs a))
  | .aslAbs a => .modify .asl (.abs a)
  | .oraLong a => .acc .ora (.mem (.long a))
  | .bpl r => .branch (some (.n, false)) r
  | .oraIdpy d => .acc .ora (.mem (.idpy d))
  | .oraIdp d => .acc .ora (.mem (.idp d))
  | .oraIsry o => .acc .ora (.mem (.isry o))
  | .trbDp d => .modify .trb (.dp d)
  | .oraDpx d => .acc .ora (.mem (.dpx d))
  | .aslDpx d => .modify .asl (.dpx d)
  | .oraIldpy d => .acc .ora (.mem (.ildpy d))
  | .oraAbsy a => .acc .ora (.mem (.absy a))
  | .incAcc => .modifyA .inc
  | .trbAbs a => .modify .trb (.abs a)
  | .oraAbsx a => .acc .ora (.mem (.absx a))
  | .aslAbsx a => .modify .asl (.absx a)
  | .oraLongx a => .acc .ora (.mem (.longx a))
  | .andIdpx d => .acc .and (.mem (.idpx d))
  | .andSr o => .acc .and (.mem (.sr o))
  | .bitDp d => .bit (.mem (.dp d))
  | .andDp d => .acc .and (.mem (.dp d))
  | .rolDp d => .modify .rol (.dp d)
  | .andIldp d => .acc .and (.mem (.ildp d))
  | .andImm v => .acc .and (.imm v)
  | .rolAcc => .modifyA .rol
  | .bitAbs a => .bit (.mem (.abs a))
  | .andAbs a => .acc .and (.mem (.abs a))
  | .rolAbs a => .modify .rol (.abs a)
  | .andLong a => .acc .and (.mem (.long a))
  | .bmi r => .branch (some (.n, true)) r
  | .andIdpy d => .acc .and (.mem (.idpy d))
  | .andIdp d => .acc .and (.mem (.idp d))
  | .andIsry o => .acc .and (.mem (.isry o))
  | .bitDpx d => .bit (.mem (.dpx d))
  | .andDpx d => .acc .and (.mem (.dpx d))
  | .rolDpx d => .modify .rol (.dpx d)
  | .andIldpy d => .acc .and (.mem (.ildpy d))
  | .andAbsy a => .acc .and (.mem (.absy a))
  | .decAcc => .modifyA .dec
  | .bitAbsx a => .bit (.mem (.absx a))
  | .andAbsx a => .acc .and (.mem (.absx a))
  | .rolAbsx a => .modify .rol (.absx a)
  | .andLongx a => .acc .and (.mem (.longx a))
  | .eorIdpx d => .acc .eor (.mem (.idpx d))
  | .eorSr o => .acc .eor (.mem (.sr o))
  | .eorDp d => .acc .eor (.mem (.dp d))
  | .lsrDp d => .modify .lsr (.dp d)
  | .eorIldp d => .acc .eor (.mem (.ildp d))
  | .eorImm v => .acc .eor (.imm v)
  | .lsrAcc => .modifyA .lsr
  | .eorAbs a => .acc .eor (.mem (.abs a))
  | .lsrAbs a => .modify .lsr (.abs a)
  | .eorLong a => .acc .eor (.mem (.long a))
  | .bvc r => .branch (some (.v, false)) r
  | .eorIdpy d => .acc .eor (.mem (.idpy d))
  | .eorIdp d => .acc .eor (.mem (.idp d))
  | .eorIsry o => .acc .eor (.mem (.isry o))
  | .eorDpx d => .acc .eor (.mem (.dpx d))
  | .lsrDpx d => .modify .lsr (.dpx d)
  | .eorIldpy d => .acc .eor (.mem (.ildpy d))
  | .eorAbsy a => .acc .eor (.mem (.absy a))
  | .eorAbsx a => .acc .eor (.mem (.absx a))
  | .lsrAbsx a => .modify .lsr (.absx a)
  | .eorLongx a => .acc .eor (.mem (.longx a))
  | .adcIdpx d => .acc .adc (.mem (.idpx d))
  | .adcSr o => .acc .adc (.mem (.sr o))
  | .stzDp d => .store .zero (.dp d)
  | .adcDp d => .acc .adc (.mem (.dp d))
  | .rorDp d => .modify .ror (.dp d)
  | .adcIldp d => .acc .adc (.mem (.ildp d))
  | .adcImm v => .acc .adc (.imm v)
  | .rorAcc => .modifyA .ror
  | .adcAbs a => .acc .adc (.mem (.abs a))
  | .rorAbs a => .modify .ror (.abs a)
  | .adcLong a => .acc .adc (.mem (.long a))
  | .bvs r => .branch (some (.v, true)) r
  | .adcIdpy d => .acc .adc (.mem (.idpy d))
  | .adcIdp d => .acc .adc (.mem (.idp d))
  | .adcIsry o => .acc .adc (.mem (.isry o))
  | .stzDpx d => .store .zero (.dpx d)
  | .adcDpx d => .acc .adc (.mem (.dpx d))
  | .rorDpx d => .modify .ror (.dpx d)
  | .adcIldpy d => .acc .adc (.mem (.ildpy d))
  | .adcAbsy a => .acc .adc (.mem (.absy a))
  | .adcAbsx a => .acc .adc (.mem (.absx a))
  | .rorAbsx a => .modify .ror (.absx a)
  | .adcLongx a => .acc .adc (.mem (.longx a))
  | .bra r => .branch none r
  | .staIdpx d => .store .a (.idpx d)
  | .staSr o => .store .a (.sr o)
  | .styDp d => .store .y (.dp d)
  | .staDp d => .store .a (.dp d)
  | .stxDp d => .store .x (.dp d)
  | .staIldp d => .store .a (.ildp d)
  | .bitImm v => .bit (.imm v)
  | .styAbs a => .store .y (.abs a)
  | .staAbs a => .store .a (.abs a)
  | .stxAbs a => .store .x (.abs a)
  | .staLong a => .store .a (.long a)
  | .bcc r => .branch (some (.c, false)) r
  | .staIdpy d => .store .a (.idpy d)
  | .staIdp d => .store .a (.idp d)
  | .staIsry o => .store .a (.isry o)
  | .styDpx d => .store .y (.dpx d)
  | .staDpx d => .store .a (.dpx d)
  | .stxDpy d => .store .x (.dpy d)
  | .staIldpy d => .store .a (.ildpy d)
  | .staAbsy a => .store .a (.absy a)
  | .stzAbs a => .store .zero (.abs a)
  | .staAbsx a => .store .a (.absx a)
  | .stzAbsx a => .store .zero (.absx a)
  | .staLongx a => .store .a (.longx a)
  | .ldyImm v => .loadY (.imm v)
  | .ldaIdpx d => .acc .lda (.mem (.idpx d))
  | .ldxImm v => .loadX (.imm v)
  | .ldaSr o => .acc .lda (.mem (.sr o))
  | .ldyDp d => .loadY (.mem (.dp d))
  | .ldaDp d => .acc .lda (.mem (.dp d))
  | .ldxDp d => .loadX (.mem (.dp d))
  | .ldaIldp d => .acc .lda (.mem (.ildp d))
  | .ldaImm v => .acc .lda (.imm v)
  | .ldyAbs a => .loadY (.mem (.abs a))
  | .ldaAbs a => .acc .lda (.mem (.abs a))
  | .ldxAbs a => .loadX (.mem (.abs a))
  | .ldaLong a => .acc .lda (.mem (.long a))
  | .bcs r => .branch (some (.c, true)) r
  | .ldaIdpy d => .acc .lda (.mem (.idpy d))
  | .ldaIdp d => .acc .lda (.mem (.idp d))
  | .ldaIsry o => .acc .lda (.mem (.isry o))
  | .ldyDpx d => .loadY (.mem (.dpx d))
  | .ldaDpx d => .acc .lda (.mem (.dpx d))
  | .ldxDpy d => .loadX (.mem (.dpy d))
  | .ldaIldpy d => .acc .lda (.mem (.ildpy d))
  | .ldaAbsy a => .acc .lda (.mem (.absy a))
  | .ldyAbsx a => .loadY (.mem (.absx a))
  | .ldaAbsx a => .acc .lda (.mem (.absx a))
  | .ldxAbsy a => .loadX (.mem (.absy a))
  | .ldaLongx a => .acc .lda (.mem (.longx a))
  | .cpyImm v => .compare .y (.imm v)
  | .cmpIdpx d => .compare .a (.mem (.idpx d))
  | .cmpSr o => .compare .a (.mem (.sr o))
  | .cpyDp d => .compare .y (.mem (.dp d))
  | .cmpDp d => .compare .a (.mem (.dp d))
  | .decDp d => .modify .dec (.dp d)
  | .cmpIldp d => .compare .a (.mem (.ildp d))
  | .cmpImm v => .compare .a (.imm v)
  | .cpyAbs a => .compare .y (.mem (.abs a))
  | .cmpAbs a => .compare .a (.mem (.abs a))
  | .decAbs a => .modify .dec (.abs a)
  | .cmpLong a => .compare .a (.mem (.long a))
  | .bne r => .branch (some (.z, false)) r
  | .cmpIdpy d => .compare .a (.mem (.idpy d))
  | .cmpIdp d => .compare .a (.mem (.idp d))
  | .cmpIsry o => .compare .a (.mem (.isry o))
  | .cmpDpx d => .compare .a (.mem (.dpx d))
  | .decDpx d => .modify .dec (.dpx d)
  | .cmpIldpy d => .compare .a (.mem (.ildpy d))
  | .cmpAbsy a => .compare .a (.mem (.absy a))
  | .cmpAbsx a => .compare .a (.mem (.absx a))
  | .decAbsx a => .modify .dec (.absx a)
  | .cmpLongx a => .compare .a (.mem (.longx a))
  | .cpxImm v => .compare .x (.imm v)
  | .sbcIdpx d => .acc .sbc (.mem (.idpx d))
  | .sbcSr o => .acc .sbc (.mem (.sr o))
  | .cpxDp d => .compare .x (.mem (.dp d))
  | .sbcDp d => .acc .sbc (.mem (.dp d))
  | .incDp d => .modify .inc (.dp d)
  | .sbcIldp d => .acc .sbc (.mem (.ildp d))
  | .sbcImm v => .acc .sbc (.imm v)
  | .cpxAbs a => .compare .x (.mem (.abs a))
  | .sbcAbs a => .acc .sbc (.mem (.abs a))
  | .incAbs a => .modify .inc (.abs a)
  | .sbcLong a => .acc .sbc (.mem (.long a))
  | .beq r => .branch (some (.z, true)) r
  | .sbcIdpy d => .acc .sbc (.mem (.idpy d))
  | .sbcIdp d => .acc .sbc (.mem (.idp d))
  | .sbcIsry o => .acc .sbc (.mem (.isry o))
  | .sbcDpx d => .acc .sbc (.mem (.dpx d))
  | .incDpx d => .modify .inc (.dpx d)
  | .sbcIldpy d => .acc .sbc (.mem (.ildpy d))
  | .sbcAbsy a => .acc .sbc (.mem (.absy a))
  | .sbcAbsx a => .acc .sbc (.mem (.absx a))
  | .incAbsx a => .modify .inc (.absx a)
  | .sbcLongx a => .acc .sbc (.mem (.longx a))
  | .brk _ | .cop _ | .php | .phd | .clc | .tcs | .jsrJabs _ | .jsl _ | .plp | .pld | .sec
  | .tsc | .rti | .wdm _ | .mvp _ _ | .pha | .phk | .jmpJabs _ | .mvn _ _ | .cli | .phy
  | .tcd | .jmlJlong _ | .rts | .per _ | .pla | .rtl | .jmpIabs _ | .sei | .ply | .tdc
  | .jmpIabsx _ | .brl _ | .dey | .txa | .phb | .tya | .txs | .txy | .tay | .tax | .plb
  | .clv | .tsx | .tyx | .rep _ | .iny | .dex | .wai | .pei _ | .cld | .phx | .stp
  | .jmlIlabs _ | .sep _ | .inx | .nop | .xba | .pea _ | .sed | .plx | .xce | .jsrIabsx _ => .other

end Sys2Proof

namespace Sys2Proof.Machine

/-! ### The regularities of the opcode map (30_encoding.md R131) -/

/-- The group base `g` of the accumulator instructions. -/
def AccOp.groupBase (op : AccOp) : Nat :=
  match op with
  | .ora => 0x00
  | .and => 0x20
  | .eor => 0x40
  | .adc => 0x60
  | .lda => 0xA0
  | .sbc => 0xE0

/-- The offset `o` of an addressing mode within a group; `dp,Y` is in none. -/
def Operand.groupOffset (o : Operand) : Option Nat :=
  match o with
  | .imm _         => some 0x09
  | .mem (.idpx _)  => some 0x01
  | .mem (.sr _)    => some 0x03
  | .mem (.dp _)    => some 0x05
  | .mem (.ildp _)  => some 0x07
  | .mem (.abs _)   => some 0x0D
  | .mem (.long _)  => some 0x0F
  | .mem (.idpy _)  => some 0x11
  | .mem (.idp _)   => some 0x12
  | .mem (.isry _)  => some 0x13
  | .mem (.dpx _)   => some 0x15
  | .mem (.ildpy _) => some 0x17
  | .mem (.absy _)  => some 0x19
  | .mem (.absx _)  => some 0x1D
  | .mem (.longx _) => some 0x1F
  | .mem (.dpy _)   => none

/-- The group base `g` of the shifts and rotates; the other instructions of this shape have none. -/
def ModifyOp.groupBase (op : ModifyOp) : Option Nat :=
  match op with
  | .asl => some 0x00
  | .rol => some 0x20
  | .lsr => some 0x40
  | .ror => some 0x60
  | .inc | .dec | .tsb | .trb => none

/-- The offset `o` of a memory mode within a group of shifts or rotates. -/
def MemMode.shiftOffset (m : MemMode) : Option Nat :=
  match m with
  | .dp _   => some 0x06
  | .abs _  => some 0x0E
  | .dpx _  => some 0x16
  | .absx _ => some 0x1E
  | .dpy _ | .idp _ | .idpx _ | .idpy _ | .ildp _ | .ildpy _ | .absy _ | .long _ | .longx _
  | .sr _ | .isry _ => none

/-! ### The cycle cost (70_reset_and_hazards.md R470 to R472) -/

/-- The base cycles, row by row as R471 prints them. -/
def baseCycleTable : List (List Nat) :=
  [[7, 6, 7, 4, 5, 3, 5, 6, 3, 2, 2, 4, 6, 4, 6, 5],
   [2, 5, 5, 7, 5, 4, 6, 6, 2, 4, 2, 2, 6, 4, 7, 5],
   [6, 6, 8, 4, 3, 3, 5, 6, 4, 2, 2, 5, 4, 4, 6, 5],
   [2, 5, 5, 7, 4, 4, 6, 6, 2, 4, 2, 2, 4, 4, 7, 5],
   [6, 6, 2, 4, 7, 3, 5, 6, 3, 2, 2, 3, 3, 4, 6, 5],
   [2, 5, 5, 7, 7, 4, 6, 6, 2, 4, 3, 2, 4, 4, 7, 5],
   [6, 6, 6, 4, 3, 3, 5, 6, 4, 2, 2, 6, 5, 4, 6, 5],
   [2, 5, 5, 7, 4, 4, 6, 6, 2, 4, 4, 2, 6, 4, 7, 5],
   [3, 6, 4, 4, 3, 3, 3, 6, 2, 2, 2, 3, 4, 4, 4, 5],
   [2, 6, 5, 7, 4, 4, 4, 6, 2, 5, 2, 2, 4, 5, 5, 5],
   [2, 6, 2, 4, 3, 3, 3, 6, 2, 2, 2, 4, 4, 4, 4, 5],
   [2, 5, 5, 7, 4, 4, 4, 6, 2, 4, 2, 2, 4, 4, 4, 5],
   [2, 6, 3, 4, 3, 3, 5, 6, 2, 2, 2, 3, 4, 4, 6, 5],
   [2, 5, 5, 7, 6, 4, 6, 6, 2, 4, 3, 3, 6, 4, 7, 5],
   [2, 6, 3, 4, 3, 3, 5, 6, 2, 2, 2, 3, 4, 4, 6, 5],
   [2, 5, 5, 7, 5, 4, 6, 6, 2, 4, 4, 2, 8, 4, 7, 5]]

/-- Row 0x of the notes. -/
def noteRow0 : List (List Note) :=
  [[.n4], [.n1, .n2], [.n4], [.n1], [.n2, .n8], [.n1, .n2], [.n2, .n8], [.n1, .n2], [], [.n1],
   [], [], [.n8], [.n1], [.n8], [.n1]]

/-- Row 1x of the notes. -/
def noteRow1 : List (List Note) :=
  [[.n5, .n6], [.n1, .n2, .n3], [.n1, .n2], [.n1], [.n2, .n8], [.n1, .n2], [.n2, .n8],
   [.n1, .n2], [], [.n1, .n3], [], [], [.n8], [.n1, .n3], [.n8], [.n1]]

/-- Row 2x of the notes. -/
def noteRow2 : List (List Note) :=
  [[], [.n1, .n2], [], [.n1], [.n1, .n2], [.n1, .n2], [.n2, .n8], [.n1, .n2], [], [.n1], [],
   [], [.n1], [.n1], [.n8], [.n1]]

/-- Row 3x of the notes. -/
def noteRow3 : List (List Note) :=
  [[.n5, .n6], [.n1, .n2, .n3], [.n1, .n2], [.n1], [.n1, .n2], [.n1, .n2], [.n2, .n8],
   [.n1, .n2], [], [.n1, .n3], [], [], [.n1, .n3], [.n1, .n3], [.n8], [.n1]]

/-- Row 4x of the notes. -/
def noteRow4 : List (List Note) :=
  [[.n4], [.n1, .n2], [], [.n1], [.n9], [.n1, .n2], [.n2, .n8], [.n1, .n2], [.n1], [.n1], [],
   [], [], [.n1], [.n8], [.n1]]

/-- Row 5x of the notes. -/
def noteRow5 : List (List Note) :=
  [[.n5, .n6], [.n1, .n2, .n3], [.n1, .n2], [.n1], [.n9], [.n1, .n2], [.n2, .n8], [.n1, .n2],
   [], [.n1, .n3], [.n10], [], [], [.n1, .n3], [.n8], [.n1]]

/-- Row 6x of the notes. -/
def noteRow6 : List (List Note) :=
  [[], [.n1, .n2], [], [.n1], [.n1, .n2], [.n1, .n2], [.n2, .n8], [.n1, .n2], [.n1], [.n1],
   [], [], [], [.n1], [.n8], [.n1]]

/-- Row 7x of the notes. -/
def noteRow7 : List (List Note) :=
  [[.n5, .n6], [.n1, .n2, .n3], [.n1, .n2], [.n1], [.n1, .n2], [.n1, .n2], [.n2, .n8],
   [.n1, .n2], [], [.n1, .n3], [.n10], [], [], [.n1, .n3], [.n8], [.n1]]

/-- Row 8x of the notes. -/
def noteRow8 : List (List Note) :=
  [[.n6], [.n1, .n2], [], [.n1], [.n2, .n10], [.n1, .n2], [.n2, .n10], [.n1, .n2], [], [.n1],
   [], [], [.n10], [.n1], [.n10], [.n1]]

/-- Row 9x of the notes. -/
def noteRow9 : List (List Note) :=
  [[.n5, .n6], [.n1, .n2], [.n1, .n2], [.n1], [.n2, .n10], [.n1, .n2], [.n2, .n10],
   [.n1, .n2], [], [.n1], [], [], [.n1], [.n1], [.n1], [.n1]]

/-- Row Ax of the notes. -/
def noteRowA : List (List Note) :=
  [[.n10], [.n1, .n2], [.n10], [.n1], [.n2, .n10], [.n1, .n2], [.n2, .n10], [.n1, .n2], [],
   [.n1], [], [], [.n10], [.n1], [.n10], [.n1]]

/-- Row Bx of the notes. -/
def noteRowB : List (List Note) :=
  [[.n5, .n6], [.n1, .n2, .n3], [.n1, .n2], [.n1], [.n2, .n10], [.n1, .n2], [.n2, .n10],
   [.n1, .n2], [], [.n1, .n3], [], [], [.n3, .n10], [.n1, .n3], [.n3, .n10], [.n1]]

/-- Row Cx of the notes. -/
def noteRowC : List (List Note) :=
  [[.n10], [.n1, .n2], [], [.n1], [.n2, .n10], [.n1, .n2], [.n2, .n8], [.n1, .n2], [], [.n1],
   [], [], [.n10], [.n1], [.n8], [.n1]]

/-- Row Dx of the notes. -/
def noteRowD : List (List Note) :=
  [[.n5, .n6], [.n1, .n2, .n3], [.n1, .n2], [.n1], [.n2], [.n1, .n2], [.n2, .n8], [.n1, .n2],
   [], [.n1, .n3], [.n10], [], [], [.n1, .n3], [.n8], [.n1]]

/-- Row Ex of the notes. -/
def noteRowE : List (List Note) :=
  [[.n10], [.n1, .n2], [], [.n1], [.n2, .n10], [.n1, .n2], [.n2, .n8], [.n1, .n2], [], [.n1],
   [], [], [.n10], [.n1], [.n8], [.n1]]

/-- Row Fx of the notes. -/
def noteRowF : List (List Note) :=
  [[.n5, .n6], [.n1, .n2, .n3], [.n1, .n2], [.n1], [], [.n1, .n2], [.n2, .n8], [.n1, .n2], [],
   [.n1, .n3], [.n10], [], [], [.n1, .n3], [.n8], [.n1]]

/-- The cycle notes of each opcode byte (70_reset_and_hazards.md R472; the encoding tables of files 42 to
47). -/
def noteTable : List (List (List Note)) :=
  [noteRow0, noteRow1, noteRow2, noteRow3, noteRow4, noteRow5, noteRow6, noteRow7,
   noteRow8, noteRow9, noteRowA, noteRowB, noteRowC, noteRowD, noteRowE, noteRowF]

/-- `base(op)` (R471). -/
def baseCycles (op : Byte) : Nat := (baseCycleTable.getD (op.toNat / 16) []).getD (op.toNat % 16) 0

/-- The notes of an opcode (R472). -/
def notesOf (op : Byte) : List Note := (noteTable.getD (op.toNat / 16) []).getD (op.toNat % 16) []

/-- Whether a note applies to an opcode (R470). -/
def hasNote (n : Note) (op : Byte) : Bool := (notesOf op).contains n

/-- `crossed` of an operand (41_addressing.md R190, R194, R195); 0 where its mode gives none. -/
def Operand.crossed (o : Operand) (s : State) : Bool :=
  match o with
  | .imm _ => false
  | .mem m => (s.effective m).crossed

/-- Whether a branch is taken (45_control.md R310 to R319). -/
def branchTaken (cond : Option (Flag × Bool)) (s : State) : Bool :=
  match cond with
  | none => true
  | some (f, b) => s.flag f == b

/-- A branch's target (41_addressing.md R206). -/
def branchTarget (r : Byte) (s : State) : Word := s.pc + 2 + r.signExtend 16

/-- A branch's `pg`: the target's page is not that of the next instruction (45_control.md R310). -/
def branchPage (r : Byte) (s : State) : Bool :=
  (branchTarget r s).toNat / 256 != (s.pc + 2).toNat / 256

end Sys2Proof.Machine

namespace Sys2Proof

open Sys2Proof.Machine

/-- `crossed` as the cost of an instruction reads it (70_reset_and_hazards.md R470). -/
def Instr.crossed (i : Instr) (s : State) : Bool :=
  match i.shape with
  | .acc _ o | .loadX o | .loadY o | .compare _ o | .bit o => o.crossed s
  | .store _ m | .modify _ m => (s.effective m).crossed
  | .branch _ r => branchPage r s
  | .modifyA _ | .other => false

/-- `taken` as the cost of an instruction reads it (R470). -/
def Instr.taken (i : Instr) (s : State) : Bool :=
  match i.shape with
  | .branch cond _ => branchTaken cond s
  | .acc _ _ | .loadX _ | .loadY _ | .compare _ _ | .bit _ | .store _ _ | .modify _ _ | .modifyA _
  | .other => false

/-- `CycleCost(op, s, crossed, taken)` (R470), term by term. -/
def Instr.cost (i : Instr) (s : State) : Nat :=
  baseCycles i.opcode
    + (if hasNote .n1 i.opcode ∧ s.accIs8 = false then 1 else 0)
    + (if hasNote .n2 i.opcode ∧ lowByte s.d ≠ 0 then 1 else 0)
    + (if hasNote .n3 i.opcode ∧ (i.crossed s ∨ s.indexIs8 = false) then 1 else 0)
    + (if hasNote .n4 i.opcode ∧ s.e = false then 1 else 0)
    + (if hasNote .n5 i.opcode ∧ i.taken s then 1 else 0)
    + (if hasNote .n6 i.opcode ∧ i.taken s ∧ s.e ∧ i.crossed s then 1 else 0)
    + (if hasNote .n8 i.opcode ∧ s.accIs8 = false then 2 else 0)
    + (if hasNote .n10 i.opcode ∧ s.indexIs8 = false then 1 else 0)

end Sys2Proof
end

