-- ==== Sys2Proof/Safety.lean ====
section
/-! DEFINITION. What claims about the machine are stated in: the width state machine
(10_state.md R32), the invariants every instruction keeps (R33, R34), the states a program's run
may start from (70_reset_and_hazards.md R456), and what an instruction writes and leaves alone. -/

namespace Sys2Proof.Machine

/-! ### Width states and invariants -/

/-- The five width states (10_state.md R32). -/
inductive WidthState where
  | emulation
  | nativeNarrow
  | nativeWideAccumulator
  | nativeWideIndex
  | nativeWideBoth
deriving DecidableEq, Repr

/-- The width state E, M and X stand for (R32). In emulation mode the stored flags do not matter
(R30, R31). -/
def WidthState.of (e m x : Bool) : WidthState :=
  if e then .emulation
  else match m, x with
    | true, true   => .nativeNarrow
    | false, true  => .nativeWideAccumulator
    | true, false  => .nativeWideIndex
    | false, false => .nativeWideBoth

/-- The width state of a state (R32). -/
def State.widthState (s : State) : WidthState := .of s.e (s.flag .m) (s.flag .x)

/-- The emulation invariant (10_state.md R33). -/
def State.EmulationInv (s : State) : Prop :=
  s.e = true → s.flag .m = true ∧ s.flag .x = true ∧
    highByte s.x = 0 ∧ highByte s.y = 0 ∧ highByte s.sp = 0x01

/-- The narrow-index invariant (10_state.md R34). -/
def State.NarrowIndexInv (s : State) : Prop :=
  s.indexIs8 = true → highByte s.x = 0 ∧ highByte s.y = 0

/-- The invariant of every state a run reaches: R33, R34, and every RAM device's bytes in canonical
form. -/
structure State.Inv (s : State) : Prop where
  emulation : s.EmulationInv
  narrow    : s.NarrowIndexInv
  memory    : s.bus.wf

/-- Some registered device claims an address (20_memory.md R78). -/
def Bus.Claims (b : Bus) (a : Address) : Prop := (b.resolve a).isSome = true

/-- A state from which a run may start of a program that uses the addresses `uses`, its code among them
(70_reset_and_hazards.md R456): what `reset()` leaves, the fields it does not write arbitrary; RES
released; and the devices of R454 step 2 registered, so that each of those addresses is claimed. -/
structure State.Launched (uses : Address → Prop) (s : State) : Prop where
  released : s.res = false
  reset    : ∃ t : State, t.bus.wf ∧ s = t.performReset
  /-- The code at the entry point, `00:vecE.reset`. -/
  entry    : s.bus.Claims (mkAddress 0x00 s.cfg.vecE.reset)
  /-- The stack page, which is page 1 of bank 0 after reset (10_state.md R33). -/
  stack    : ∀ l : Byte, s.bus.Claims (mkAddress 0x00 (joinBytes 0x01 l))
  used     : ∀ a : Address, uses a → s.bus.Claims a

/-- The core is executing: RES released and the run state Running (40_core_loop.md R151, R152). -/
def State.Executing (s : State) : Prop := s.res = false ∧ s.run = .running

/-- The host's getters (40_core_loop.md R168, R169, R172; 60_exceptions.md R433). -/
def HostAction.isGetter (h : HostAction) : Bool :=
  match h with
  | .getRegister _ | .getFlag _ | .getE | .getCycles | .getRES | .getRDY | .getRun
  | .getDeviceState _ => true
  | .registerDevice _ | .setRESPin _ | .setRDYPin _ | .reset | .executeNextInstruction
  | .setRegister _ _ | .setFlag _ _ | .setE _ | .readByte _ | .storeByte _ _ | .readTwoBytes _
  | .storeTwoBytes _ _ | .readAddressAt _ | .setDeviceState _ _ => false

/-! ### What an instruction writes and what it leaves alone -/

/-- The fields of the state other than P and the bus. -/
inductive Field where
  | c | x | y | d | sp | dbr | pbr | pc | e | cycles | res | rdy | run | cfg
deriving DecidableEq, Repr

/-- A field has the same value in two states. -/
def Field.Same (f : Field) (s t : State) : Prop :=
  match f with
  | .c      => t.c = s.c
  | .x      => t.x = s.x
  | .y      => t.y = s.y
  | .d      => t.d = s.d
  | .sp     => t.sp = s.sp
  | .dbr    => t.dbr = s.dbr
  | .pbr    => t.pbr = s.pbr
  | .pc     => t.pc = s.pc
  | .e      => t.e = s.e
  | .cycles => t.cycles = s.cycles
  | .res    => t.res = s.res
  | .rdy    => t.rdy = s.rdy
  | .run    => t.run = s.run
  | .cfg    => t.cfg = s.cfg

/-- Every field but those named is unchanged. -/
def KeepsFieldsBut (written : List Field) (s t : State) : Prop :=
  ∀ f : Field, f ∉ written → f.Same s t

/-- Every bit of P but those named is unchanged. -/
def KeepsFlagsBut (written : List Flag) (s t : State) : Prop :=
  ∀ f : Flag, f ∉ written → t.flag f = s.flag f

/-- Every byte of memory reads as before. -/
def KeepsMemory (s t : State) : Prop := ∀ a : Address, t.bus.peek a = s.bus.peek a

/-- Every byte of memory outside the named addresses reads as before. -/
def KeepsMemoryBut (stored : List Address) (s t : State) : Prop :=
  ∀ a : Address, a ∉ stored → t.bus.peek a = s.bus.peek a

/-- `finish(len, cyc)` with the cost of the instruction, as seen in the state after (00_scope.md R12,
41_addressing.md R214). -/
def Finishes (i : Instr) (len : Nat) (s t : State) : Prop :=
  t.pc = s.pc + BitVec.ofNat 16 len ∧ t.cycles = s.cycles + i.cost s

/-- `SetNZ(w, v)` as seen in the state after (00_scope.md R13). -/
def SetsNZ (w : Width) (v : Word) (t : State) : Prop :=
  t.flag .n = w.msb v ∧ t.flag .z = decide (w.trunc v = 0)

/-- The accumulator after `SetAcc(w, v)`: A alone at width 8, C at width 16 (00_scope.md R10). -/
def SetsAcc (w : Width) (v : Word) (s t : State) : Prop :=
  match w with
  | .w8  => t.a = lowByte v ∧ t.b = s.b
  | .w16 => t.c = v

/-- A RAM device answers at an address, so a byte stored there is kept (20_memory.md R102). -/
def Bus.Holds (b : Bus) (a : Address) : Prop :=
  ∃ i lo hi cells l, b.resolve a = some { index := i, dev := .ram lo hi cells, loc := l }

/-- The stack addresses that `n` pushes from `sp` store to (41_addressing.md R208). -/
def pushSlots (e : Bool) (n : Nat) (sp : Word) : List Address :=
  match n with
  | 0     => []
  | k + 1 => stackAddress sp :: pushSlots e k (stackDown e sp)

/-- The bytes of a stored value read back from RAM: the low byte first, the high byte after it at
width 16 (20_memory.md R87, R102). -/
def StoresBytes (w : Width) (l : Loc) (v : Word) (s t : State) : Prop :=
  s.bus.wf → ∀ k, k < w.bytes → s.bus.Holds (l.addr k) →
    t.bus.peek (l.addr k) = some (if k = 0 then lowByte v else highByte v)

/-- What an instruction that pushes does: the stack and the stack pointer of `u`, which names the
pushes, and nothing else but the end of the instruction (46_stack.md R340 to R346, R353 to R355). -/
def Pushes (i : Instr) (len bytes : Nat) (s u : State) : Prop :=
  ∃ t, exec i s = .next t ∧ t.bus = u.bus ∧ t.sp = u.sp ∧ t.p = s.p ∧ Finishes i len s t ∧
    KeepsFieldsBut [.sp, .pc, .cycles] s t ∧ KeepsMemoryBut (pushSlots s.e bytes s.sp) s t

/-- What an instruction that writes registers and flags only does to everything it does not name. -/
def RegisterOnly (i : Instr) (fields : List Field) (flags : List Flag) (s t : State) : Prop :=
  t.bus = s.bus ∧ Finishes i 1 s t ∧ KeepsFieldsBut (fields ++ [.pc, .cycles]) s t ∧
    KeepsFlagsBut flags s t ∧ KeepsMemory s t

/-- The result of a read-modify-write instruction, on numbers below `2^w` (43_arith_logic.md R269 to
R272; 44_shift_rotate.md R300 to R303). -/
def modifyRule (op : ModifyOp) (w a v carry : Nat) : Nat :=
  match op with
  | .asl => v * 2 % 2 ^ w
  | .lsr => v / 2
  | .rol => (v * 2 + carry) % 2 ^ w
  | .ror => v / 2 + carry * 2 ^ (w - 1)
  | .inc => (v + 1) % 2 ^ w
  | .dec => (v + 2 ^ w - 1) % 2 ^ w
  | .tsb => v ||| a
  | .trb => v &&& (a ^^^ (2 ^ w - 1))

/-- The flags of a read-modify-write instruction: the operand `v`, the result `r` (R269 to R272, R300
to R303). -/
def ModifyFlags (op : ModifyOp) (w : Width) (a v r : Word) (s t : State) : Prop :=
  match op with
  | .asl | .rol => SetsNZ w r t ∧ t.flag .c = w.msb v ∧ KeepsFlagsBut [.n, .z, .c] s t
  | .lsr | .ror => SetsNZ w r t ∧ t.flag .c = v.getLsbD 0 ∧ KeepsFlagsBut [.n, .z, .c] s t
  | .inc | .dec => SetsNZ w r t ∧ KeepsFlagsBut [.n, .z] s t
  | .tsb | .trb => t.flag .z = decide (a &&& v = 0) ∧ KeepsFlagsBut [.z] s t

/-- `WriteP(v)` as seen in the state after (47_status_system.md R370). -/
def WritesP (v : Byte) (s t : State) : Prop :=
  t.p = (if s.e then v ||| 0x30 else v) ∧
    t.x = (if t.flag .x then s.x &&& 0xFF else s.x) ∧ t.y = (if t.flag .x then s.y &&& 0xFF else s.y)

/-- `exec` of one instruction, `n` times over: a block move that repeats (42_load_store_transfer.md R240). -/
def execTimes (n : Nat) (i : Instr) (s : State) : Result :=
  match n with
  | 0     => .next s
  | k + 1 =>
    match exec i s with
    | .next t    => execTimes k i t
    | .fault r   => .fault r
    | .refused r => .refused r

end Sys2Proof.Machine
end

