-- ==== Sys2Proof/Certificates/Slice0/Obligations.lean ====
section
/-! DEFINITION. The statements about the model, from the numbered rules of the spec. A statement about
an instruction says that `exec` answers a next state for every state and every operand, what that
state holds, and what it leaves alone. -/

open Sys2Proof
open Sys2Proof.Machine

/-! ### Encoding -/

/-- Words written out from the layouts of 30_encoding.md R121 and the map of R130, one or more of each
family, decode to the instruction they stand for. -/
def Obligations.SampleWordsDecode : Prop :=
  decode true true [0xA9, 0x34, 0x12] = .ok (.ldaImm 0x34, [0x12]) ∧
  decode false true [0xA9, 0x34, 0x12] = .ok (.ldaImm 0x1234, []) ∧
  decode false true [0xA2, 0x34, 0x12] = .ok (.ldxImm 0x34, [0x12]) ∧
  decode true false [0xA0, 0x34, 0x12] = .ok (.ldyImm 0x1234, []) ∧
  decode true true [0xEB] = .ok (.xba, []) ∧
  decode true true [0x54, 0x7E, 0x7F] = .ok (.mvn 0x7E 0x7F, []) ∧
  decode true true [0xF1, 0x10] = .ok (.sbcIdpy 0x10, []) ∧
  decode true true [0x2F, 0x56, 0x34, 0x12] = .ok (.andLong 0x123456, []) ∧
  decode true true [0xDE, 0xFF, 0x10] = .ok (.decAbsx 0x10FF, []) ∧
  decode true true [0x66, 0x80] = .ok (.rorDp 0x80, []) ∧
  decode true true [0x80, 0x80] = .ok (.bra 0x80, []) ∧
  decode true true [0xDC, 0x00, 0x90] = .ok (.jmlIlabs 0x9000, []) ∧
  decode true true [0xF4, 0x34, 0x12] = .ok (.pea 0x1234, []) ∧
  decode true true [0xC2, 0x30] = .ok (.rep 0x30, []) ∧
  decode true true [0x42, 0xEA, 0xEA] = .ok (.wdm 0xEA, [0xEA])

/-- Decoding the encoding of a well-formed instruction gives it back, whatever bytes follow: every
constructor, every operand the encoding admits, every width. -/
def Obligations.DecodeOfEncode : Prop :=
  ∀ (i : Instr) (m8 x8 : Bool) (rest : List Byte), i.wf m8 x8 = true →
    decode m8 x8 (encode m8 x8 i ++ rest) = .ok (i, rest)

/-- Whatever bytes decode, the instruction is well-formed and they are its encoding. -/
def Obligations.EncodeOfDecode : Prop :=
  ∀ (m8 x8 : Bool) (bytes rest : List Byte) (i : Instr), decode m8 x8 bytes = .ok (i, rest) →
    i.wf m8 x8 = true ∧ encode m8 x8 i ++ rest = bytes

/-- Immediate widths (30_encoding.md R124), and what every opcode byte has: at most three operand
bytes, a number of them that the widths change for the 12 immediate opcodes only, and an instruction. -/
def Obligations.ImmediateWidths : Prop :=
  (∀ op : Byte, ∀ mk : Word → Instr,
    (op, mk) ∈ [((0x09 : Byte), Instr.oraImm), (0x29, .andImm), (0x49, .eorImm), (0x69, .adcImm),
      (0x89, .bitImm), (0xA9, .ldaImm), (0xC9, .cmpImm), (0xE9, .sbcImm)] →
    ∀ (x8 : Bool) (b1 b2 : Byte) (rest : List Byte),
      decode true x8 (op :: b1 :: rest) = .ok (mk (BitVec.ofNat 16 b1.toNat), rest) ∧
      decode false x8 (op :: b1 :: b2 :: rest)
        = .ok (mk (BitVec.ofNat 16 (b1.toNat + 0x100 * b2.toNat)), rest)) ∧
  (∀ op : Byte, ∀ mk : Word → Instr,
    (op, mk) ∈ [((0xA0 : Byte), Instr.ldyImm), (0xA2, .ldxImm), (0xC0, .cpyImm), (0xE0, .cpxImm)] →
    ∀ (m8 : Bool) (b1 b2 : Byte) (rest : List Byte),
      decode m8 true (op :: b1 :: rest) = .ok (mk (BitVec.ofNat 16 b1.toNat), rest) ∧
      decode m8 false (op :: b1 :: b2 :: rest)
        = .ok (mk (BitVec.ofNat 16 (b1.toNat + 0x100 * b2.toNat)), rest)) ∧
  (∀ (m8 x8 m8' x8' : Bool) (op : Byte), operandCount m8 x8 op ≤ 3 ∧
    (op ∉ [(0x09 : Byte), 0x29, 0x49, 0x69, 0x89, 0xA9, 0xC9, 0xE9, 0xA0, 0xA2, 0xC0, 0xE0] →
      operandCount m8 x8 op = operandCount m8' x8' op) ∧
    (op ∈ [(0xC2 : Byte), 0xE2, 0x00, 0x02, 0x42] → operandCount m8 x8 op = 1) ∧
    (op = 0xF4 → operandCount m8 x8 op = 2)) ∧
  (∀ (m8 x8 : Bool) (op : Byte) (args : List Byte), operandCount m8 x8 op ≤ args.length →
    ∃ i, decode m8 x8 (op :: args) = .ok (i, args.drop (operandCount m8 x8 op)))

/-- The regularities of the opcode map (30_encoding.md R131): the opcode of every form of ORA, AND, EOR,
ADC, STA, LDA, CMP, SBC, ASL, ROL, LSR and ROR is its group's base plus its mode's offset; 0x89 is
BIT with an immediate. -/
def Obligations.OpcodesFollowTheRegularities : Prop :=
  (∀ (i : Instr) (op : AccOp) (o : Operand), i.shape = .acc op o →
    some i.opcode.toNat = o.groupOffset.map (op.groupBase + ·)) ∧
  (∀ (i : Instr) (m : MemMode), i.shape = .store .a m →
    some i.opcode.toNat = (Operand.mem m).groupOffset.map (0x80 + ·)) ∧
  (∀ (i : Instr) (o : Operand), i.shape = .compare .a o →
    some i.opcode.toNat = o.groupOffset.map (0xC0 + ·)) ∧
  (∀ (i : Instr) (op : ModifyOp) (m : MemMode) (g : Nat), i.shape = .modify op m →
    op.groupBase = some g → some i.opcode.toNat = m.shiftOffset.map (g + ·)) ∧
  (∀ (i : Instr) (op : ModifyOp) (g : Nat), i.shape = .modifyA op →
    op.groupBase = some g → i.opcode.toNat = g + 0x0A) ∧
  (∀ v : Word, (Instr.bitImm v).opcode = 0x89)

/-! ### The step and the host -/

/-- A step runs the decoded instruction. When the bytes at the program address, wrapping in the
program bank, are the encoding of a well-formed instruction at the widths in force, and memory the
model can read without a device, the step is exactly `exec` of it: the fetch moves and changes
nothing. Whatever answers the fetch, a step is `exec` of some instruction on the state with every byte
of memory as before. -/
def Obligations.StepRunsDecodedInstruction : Prop :=
  (∀ (s : State) (i : Instr), s.Executing → i.wf s.accIs8 s.indexIs8 = true →
    (∀ (k : Nat) (v : Byte), (encode s.accIs8 s.indexIs8 i)[k]? = some v →
      s.bus.peek (mkAddress s.pbr (s.pc + BitVec.ofNat 16 k)) = some v) →
    step s = exec i s) ∧
  (∀ s : State, s.Executing → ∃ i b, step s = exec i { s with bus := b } ∧
    i.wf s.accIs8 s.indexIs8 = true ∧ ∀ a, b.peek a = s.bus.peek a)

/-- No instruction and no step raises an exception: each answers a next state, whatever the state. -/
def Obligations.EveryStepAnswersNext : Prop :=
  (∀ (i : Instr) (s : State), ∃ t, exec i s = .next t) ∧ ∀ s : State, ∃ t, step s = .next t

/-- While RES is held, or the run state is Waiting or Stopped, `executeNextInstruction()` returns false
and changes nothing: no register, no flag, no cycle, no device. Reset ends the second condition. -/
def Obligations.HeldOrHaltedDoesNothing : Prop :=
  (∀ s : State, s.res = true → s.executeNextInstruction = (false, s)) ∧
  (∀ s : State, s.run ≠ .running → s.executeNextInstruction = (false, s)) ∧
  (∀ s : State, s.performReset.run = .running)

/-- An executed instruction's call returns true, except for WAI and STP, which return false after
setting the run state. -/
def Obligations.OnlyWaiAndStpReturnFalse : Prop :=
  ∀ s : State, s.Executing →
    (s.executeNextInstruction.1 = false ↔ s.fetch.val = .wai ∨ s.fetch.val = .stp) ∧
    (s.fetch.val = .wai → s.executeNextInstruction.2.run = .waiting) ∧
    (s.fetch.val = .stp → s.executeNextInstruction.2.run = .stopped)

/-- `reset()` writes the values of 10_state.md R51 and nothing else. -/
def Obligations.ResetWritesItsValues : Prop :=
  ∀ s : State, let t := s.performReset
    t.e = true ∧ t.flag .m = true ∧ t.flag .x = true ∧
    t.x.toNat = s.x.toNat % 256 ∧ t.y.toNat = s.y.toNat % 256 ∧ t.d = 0 ∧
    t.sp = s.cfg.stackReset ∧ highByte t.sp = 0x01 ∧
    t.pbr = 0 ∧ t.pc = s.cfg.vecE.reset ∧ t.run = .running ∧
    KeepsFieldsBut [.e, .x, .y, .d, .sp, .pbr, .pc, .run] s t ∧ KeepsFlagsBut [.m, .x] s t ∧
    t.bus = s.bus

/-- The model's own choice of the state after reset (log entries 1 to 5) is a state a run may start
from, whatever addresses the program uses: what `reset()` leaves of a core with the reference
configuration, every address claimed; and it meets the invariant. -/
def Obligations.ResetStateIsLaunched : Prop :=
  (∀ uses : Address → Prop, State.reset.Launched uses) ∧ State.reset.Executing ∧ State.reset.Inv ∧
    State.reset.cfg = Config.reference ∧ State.reset.cycles = 0

/-- `setRESPin`: its release resets once, anything else only records the pin; and reset is idempotent. -/
def Obligations.ResPinReleaseResetsOnce : Prop :=
  (∀ s : State, s.res = true → s.setRESPin false = { s.performReset with res := false }) ∧
  (∀ s : State, s.res = false → s.setRESPin false = s) ∧
  (∀ s : State, s.setRESPin true = { s with res := true }) ∧
  (∀ s : State, s.performReset.performReset = s.performReset)

/-- A setter stores its argument truncated to the field's width and does nothing else. -/
def Obligations.SettersTruncateAndDoNothingElse : Prop :=
  (∀ (s : State) (r : Register) (v : Nat),
    (s.setRegister r v).getRegister r
      = v % 2 ^ (match r with | .dbr | .pbr => 8 | .c | .x | .y | .d | .s | .pc => 16) ∧
    (∀ r', r' ≠ r → (s.setRegister r v).getRegister r' = s.getRegister r') ∧
    KeepsFieldsBut [.c, .x, .y, .d, .sp, .dbr, .pbr, .pc] s (s.setRegister r v) ∧
    (s.setRegister r v).p = s.p ∧ (s.setRegister r v).bus = s.bus) ∧
  (∀ (s : State) (f : Sys2Proof.Machine.Flag) (v : Bool),
    (s.setFlag f v).flag f = v ∧ KeepsFlagsBut [f] s (s.setFlag f v) ∧
    KeepsFieldsBut [] s (s.setFlag f v) ∧ (s.setFlag f v).bus = s.bus) ∧
  (∀ (s : State) (v : Bool), (s.setE v).e = v ∧ KeepsFieldsBut [.e] s (s.setE v) ∧
    (s.setE v).p = s.p ∧ (s.setE v).bus = s.bus)

/-! ### Invariants and rules of the whole machine -/

/-- Every step keeps the emulation invariant, the narrow-index invariant and the canonical form of
memory, from every state that has them; reset establishes them from any state with canonical memory. -/
def Obligations.StepKeepsInvariant : Prop :=
  (∀ s t : State, s.Inv → step s = .next t → t.Inv) ∧
  (∀ s : State, s.bus.wf → s.performReset.Inv)

/-- Which instructions can write E, D, DBR, PBR and the run state; none writes the pins or the
configuration. -/
def Obligations.OnlyTheirInstructionsWriteModeAndBanks : Prop :=
  ∀ (i : Instr) (s t : State), exec i s = .next t →
    (t.e ≠ s.e → i = .xce) ∧
    (t.d ≠ s.d → i = .tcd ∨ i = .pld) ∧
    (t.dbr ≠ s.dbr → i = .plb ∨ ∃ dd ss, i = .mvn dd ss ∨ i = .mvp dd ss) ∧
    (t.pbr ≠ s.pbr → i = .rtl ∨ i = .rti ∨ (∃ a, i = .jmlJlong a ∨ i = .jsl a) ∨
      (∃ a, i = .jmlIlabs a) ∨ ∃ sig, i = .brk sig ∨ i = .cop sig) ∧
    (t.run ≠ s.run → i = .wai ∨ i = .stp) ∧
    t.res = s.res ∧ t.rdy = s.rdy ∧ t.cfg = s.cfg

/-- Which instructions can write the flags M, X, D, I, V and C (10_state.md R30, R37 to R39, R41). -/
def Obligations.OnlyTheirInstructionsWriteFlags : Prop :=
  ∀ (i : Instr) (s t : State), exec i s = .next t →
    let wholeP := i = .plp ∨ i = .rti ∨ ∃ mask, i = .rep mask ∨ i = .sep mask
    let sums := ∃ o, i.shape = .acc .adc o ∨ i.shape = .acc .sbc o
    let shifts := ∃ op : ModifyOp, (op = .asl ∨ op = .lsr ∨ op = .rol ∨ op = .ror) ∧
      (i.shape = .modifyA op ∨ ∃ m, i.shape = .modify op m)
    (t.flag .m ≠ s.flag .m → wholeP ∨ i = .xce) ∧
    (t.flag .x ≠ s.flag .x → wholeP ∨ i = .xce) ∧
    (t.flag .d ≠ s.flag .d → wholeP ∨ i = .cld ∨ i = .sed ∨ ∃ sig, i = .brk sig ∨ i = .cop sig) ∧
    (t.flag .i ≠ s.flag .i → wholeP ∨ i = .cli ∨ i = .sei ∨ ∃ sig, i = .brk sig ∨ i = .cop sig) ∧
    (t.flag .v ≠ s.flag .v → wholeP ∨ sums ∨ i = .clv ∨ ∃ m, i.shape = .bit (.mem m)) ∧
    (t.flag .c ≠ s.flag .c → wholeP ∨ sums ∨ shifts ∨ i = .clc ∨ i = .sec ∨ i = .xce ∨
      ∃ r o, i.shape = .compare r o)

/-- The width-state transitions of 60_exceptions.md R422, row by row, and what a width change does to
the registers. -/
def Obligations.WidthStateTransitions : Prop :=
  (∀ s : State, s.performReset.widthState = .emulation) ∧
  (∀ (i : Instr) (s t : State), exec i s = .next t →
    (i ≠ .xce → i ≠ .plp → i ≠ .rti → (∀ mask, i ≠ .rep mask ∧ i ≠ .sep mask) →
      t.widthState = s.widthState) ∧
    (s.e = true → i ≠ .xce → t.widthState = .emulation) ∧
    (i = .xce → t.widthState =
      if s.flag .c then .emulation else .of false (s.flag .m) (s.flag .x)) ∧
    (s.e = false → ∀ mask, i = .rep mask → t.widthState =
      .of false (s.flag .m && !mask.getLsbD 5) (s.flag .x && !mask.getLsbD 4)) ∧
    (s.e = false → ∀ mask, i = .sep mask → t.widthState =
      .of false (s.flag .m || mask.getLsbD 5) (s.flag .x || mask.getLsbD 4)) ∧
    (s.e = false → i = .plp ∨ i = .rti →
      t.widthState = .of false (s.pull8.val.getLsbD 5) (s.pull8.val.getLsbD 4)) ∧
    (s.flag .x = false → t.flag .x = true → highByte t.x = 0 ∧ highByte t.y = 0) ∧
    (s.flag .m = false → t.flag .m = true → t.b = s.b)) ∧
  -- from Emulation, XCE with `P.C = 0` goes to Native-Narrow in the states R33 allows
  (∀ s t : State, s.EmulationInv → s.e = true → s.flag .c = false → exec .xce s = .next t →
    t.widthState = .nativeNarrow)

/-- Every instruction raises the cycle counter by exactly its cost in the tables R471 and R472, combined
as R470 says, and by at least 2. -/
def Obligations.CyclesFollowTheTable : Prop :=
  ∀ (i : Instr) (s t : State), exec i s = .next t →
    t.cycles = s.cycles + i.cost s ∧ 2 ≤ i.cost s

/-- No instruction and no fetch reads the RDY pin, the cycle counter, or a vector other than those of
BRK and COP: a run with other values of these does the same and keeps them. -/
def Obligations.UnreadInputsDoNotMatter : Prop :=
  ∀ (s : State) (ready : Bool) (n : Int) (k : Config),
    k.vecE.cop = s.cfg.vecE.cop → k.vecE.irqbrk = s.cfg.vecE.irqbrk →
    k.vecN.cop = s.cfg.vecN.cop → k.vecN.brk = s.cfg.vecN.brk →
    ∃ t, step s = .next t ∧
      step { s with rdy := ready, cycles := n, cfg := k }
        = .next { t with rdy := ready, cycles := n + (t.cycles - s.cycles), cfg := k }

/-! ### The bus -/

/-- Resolution: the first device in registration order that decodes the address answers it; a device
registered later comes after every earlier one. -/
def Obligations.FirstRegisteredDeviceWins : Prop :=
  (∀ (b : Bus) (a : Address) (c : Claim), b.resolve a = some c →
    b.devices[c.index]? = some c.dev ∧ c.dev.decode a = some c.loc ∧
    ∀ (j : Nat) (d : Device), j < c.index → b.devices[j]? = some d → d.decode a = none) ∧
  (∀ (b : Bus) (a : Address), b.resolve a = none ↔ ∀ d ∈ b.devices, d.decode a = none) ∧
  (∀ (b : Bus) (d : Device) (a : Address), (b.registerDevice d).resolve a =
    match b.resolve a with
    | some c => some c
    | none => (d.decode a).map fun l => { index := b.devices.length, dev := d, loc := l })

/-- The two- and three-byte operations of the bus: one decode, the low byte first, the later bytes at
the next local addresses of that one device; the defaults where no device answers. -/
def Obligations.WideBusOperationsDecodeOnce : Prop :=
  (∀ (b : Bus) (a : Address) (v : Word) (c : Claim), b.resolve a = some c →
    b.storeTwoBytes a v
      = b.setDevice c.index ((c.dev.store c.loc (lowByte v)).store (addOffset c.loc 1) (highByte v)) ∧
    (let lo := c.dev.read c.loc
     let hi := lo.dev.read (addOffset c.loc 1)
     let bk := hi.dev.read (addOffset c.loc 2)
     (b.readTwoBytes a).val.toNat = hi.val.toNat * 0x100 + lo.val.toNat ∧
     (b.readTwoBytes a).bus = b.setDevice c.index hi.dev ∧
     bankOf (b.readAddressAt a).val = bk.val ∧
     (offsetOf (b.readAddressAt a).val).toNat = hi.val.toNat * 0x100 + lo.val.toNat ∧
     (b.readAddressAt a).bus = b.setDevice c.index bk.dev)) ∧
  (∀ (b : Bus) (a : Address) (v : Word), b.resolve a = none →
    b.storeTwoBytes a v = b ∧ b.readTwoBytes a = { val := 0x0000, bus := b } ∧
    b.readAddressAt a = { val := zeroAddress, bus := b }) ∧
  (∀ (l : Address) (k : Nat), bankOf (addOffset l k) = bankOf l ∧
    (offsetOf (addOffset l k)).toNat = ((offsetOf l).toNat + k) % 2 ^ 16)

/-- A byte stored where RAM answers reads back, and every other byte of memory reads as before; where no
device answers, a store changes nothing and a read gives 0. A read of RAM, or of no device, gives the
byte and changes nothing. -/
def Obligations.StoredByteReadsBack : Prop :=
  (∀ (b : Bus) (a : Address) (v : Byte), b.wf → b.Holds a → (b.storeByte a v).peek a = some v) ∧
  (∀ (b : Bus) (a c : Address) (v : Byte), c ≠ a → (b.storeByte a v).peek c = b.peek c) ∧
  (∀ (b : Bus) (a : Address) (v : Byte), b.resolve a = none →
    b.storeByte a v = b ∧ b.readByte a = { val := 0x00, bus := b }) ∧
  (∀ (b : Bus) (a : Address) (v : Byte), b.peek a = some v → b.readByte a = { val := v, bus := b }) ∧
  (∀ (b : Bus) (a c : Address), (b.readByte a).bus.peek c = b.peek c)

/-- The program-address and cycle primitives: the offset wraps and the bank stays; the counter is an
unbounded integer. -/
def Obligations.ProgramAddressWrapsInItsBank : Prop :=
  ∀ (s : State) (n k : Nat),
    (let t := s.addToProgramAddress n
     t.pc.toNat = (s.pc.toNat + n) % 2 ^ 16 ∧ KeepsFieldsBut [.pc] s t ∧ t.p = s.p ∧ t.bus = s.bus) ∧
    s.addToCycles k = { s with cycles := s.cycles + k } ∧
    s.subtractFromCycles k = { s with cycles := s.cycles - k } ∧
    s.addToProgramAddressAndCycles n k = (s.addToCycles k).addToProgramAddress n

/-- The order and the composition of multi-byte accesses (41_addressing.md R182). -/
def Obligations.MultiByteAccessOrder : Prop :=
  (∀ (b : Bus) (l : Loc),
    let lo := b.readByte (l.addr 0)
    let hi := lo.bus.readByte (l.addr 1)
    let bk := hi.bus.readByte (l.addr 2)
    ((b.read1 l).val = lo.val ∧ (b.read1 l).bus = lo.bus) ∧
    ((b.read2 l).val.toNat = lo.val.toNat + 0x100 * hi.val.toNat ∧ (b.read2 l).bus = hi.bus) ∧
    ((b.read3 l).val.toNat = lo.val.toNat + 0x100 * hi.val.toNat + 0x10000 * bk.val.toNat ∧
      (b.read3 l).bus = bk.bus)) ∧
  (∀ (b : Bus) (l : Loc) (v : Word),
    b.writeW .w8 l v = b.storeByte (l.addr 0) (lowByte v) ∧
    b.writeW .w16 l v = (b.storeByte (l.addr 0) (lowByte v)).storeByte (l.addr 1) (highByte v) ∧
    b.writeHL .w8 l v = b.storeByte (l.addr 0) (lowByte v) ∧
    b.writeHL .w16 l v = (b.storeByte (l.addr 1) (highByte v)).storeByte (l.addr 0) (lowByte v) ∧
    v.toNat = (lowByte v).toNat + 0x100 * (highByte v).toNat) ∧
  (∀ (s : State) (v : Word), s.push16 v = (s.push8 (highByte v)).push8 (lowByte v) ∧
    s.pull16.val.toNat = s.pull8.val.toNat + 0x100 * s.pull8.st.pull8.val.toNat ∧
    s.pull16.st = s.pull8.st.pull8.st)

/-- An operand's value is the bytes of memory at its location, or its immediate (41_addressing.md
R213): read from RAM, the value is what the model's read of those bytes gives, whatever the mode's
pointer reads were. That an immediate of 0x100 or more is read as its low byte at width 8 is the
model's choice (log entry 9): R213 gives only the byte `b1`, and no encoding holds such an immediate. -/
def Obligations.LoadedOperandIsMemory : Prop :=
  (∀ (s : State) (m : MemMode) (lo : Byte),
    s.bus.peek ((s.effective m).loc.addr 0) = some lo →
    (s.load .w8 (.mem m)).value.toNat = lo.toNat) ∧
  (∀ (s : State) (m : MemMode) (lo hi : Byte),
    s.bus.peek ((s.effective m).loc.addr 0) = some lo →
    s.bus.peek ((s.effective m).loc.addr 1) = some hi →
    (s.load .w16 (.mem m)).value.toNat = lo.toNat + 0x100 * hi.toNat) ∧
  (∀ (s : State) (v : Word), (s.load .w8 (.imm v)).value.toNat = v.toNat % 0x100 ∧
    (s.load .w16 (.imm v)).value = v ∧ ∀ w, (s.load w (.imm v)).bus = s.bus)

/-! ### Addressing -/

/-- The four kinds of location (41_addressing.md R180) and the direct-page location (R183). -/
def Obligations.LocationsWrapAsTheirKindSays : Prop :=
  (∀ (a : Address) (k : Nat), ((Loc.lin a).addr k).toNat = (a.toNat + k) % 2 ^ 24) ∧
  (∀ (o : Word) (k : Nat), ((Loc.bank0 o).addr k).toNat = (o.toNat + k) % 2 ^ 16) ∧
  (∀ (h l : Byte) (k : Nat), ((Loc.page h l).addr k).toNat = h.toNat * 256 + (l.toNat + k) % 256) ∧
  (∀ (bk : Byte) (o : Word) (k : Nat),
    ((Loc.prog bk o).addr k).toNat = bk.toNat * 0x10000 + (o.toNat + k) % 2 ^ 16) ∧
  (∀ (s : State) (off k : Nat) (legacy : Bool), ((s.dpLoc off legacy).addr k).toNat =
    if legacy = true ∧ s.e = true ∧ (lowByte s.d).toNat = 0 then
      (highByte s.d).toNat * 256 + (off + k) % 256
    else (s.d.toNat + off + k) % 2 ^ 16)

/-- The modes with no pointer: their location, their page-cross bit, and no bus access. That `sr` does not
wrap in page 1 in emulation mode is the model's choice (log entry 12): DEDUCED from 41_addressing.md
R198, against the list in 92_eei_decisions.md D19. -/
def Obligations.DirectModesLocateTheirData : Prop :=
  ∀ s : State,
    (∀ d : Byte, s.effective (.dp d) = s.plain (s.dpLoc d.toNat true) ∧
      s.effective (.dpx d) = s.plain (s.dpLoc (d.toNat + s.xe.toNat) true) ∧
      s.effective (.dpy d) = s.plain (s.dpLoc (d.toNat + s.ye.toNat) true)) ∧
    (∀ (a : Word) (k : Nat),
      (let r := s.effective (.abs a)
       (r.loc.addr k).toNat = (s.dbr.toNat * 65536 + a.toNat + k) % 2 ^ 24 ∧ r.crossed = false ∧
       r.bus = s.bus) ∧
      (let r := s.effective (.absx a)
       (r.loc.addr k).toNat = (s.dbr.toNat * 65536 + a.toNat + s.xe.toNat + k) % 2 ^ 24 ∧
       r.crossed = ((a.toNat + s.xe.toNat) / 256 != a.toNat / 256) ∧ r.bus = s.bus) ∧
      (let r := s.effective (.absy a)
       (r.loc.addr k).toNat = (s.dbr.toNat * 65536 + a.toNat + s.ye.toNat + k) % 2 ^ 24 ∧
       r.crossed = ((a.toNat + s.ye.toNat) / 256 != a.toNat / 256) ∧ r.bus = s.bus)) ∧
    (∀ (a : Address) (k : Nat),
      (let r := s.effective (.long a)
       (r.loc.addr k).toNat = (a.toNat + k) % 2 ^ 24 ∧ r.crossed = false ∧ r.bus = s.bus) ∧
      (let r := s.effective (.longx a)
       (r.loc.addr k).toNat = (a.toNat + s.xe.toNat + k) % 2 ^ 24 ∧ r.crossed = false ∧
       r.bus = s.bus)) ∧
    (∀ (o : Byte) (k : Nat), let r := s.effective (.sr o)
      (r.loc.addr k).toNat = (s.sp.toNat + o.toNat + k) % 2 ^ 16 ∧ r.crossed = false ∧ r.bus = s.bus)

/-- The modes with a pointer: the pointer read, the location it gives, the page-cross bit. That the pointer
of `(sr,S),Y` does not wrap in page 1 in emulation mode is the model's choice (log entry 12): DEDUCED
from 41_addressing.md R199, against the list in 92_eei_decisions.md D19. -/
def Obligations.IndirectModesFollowTheirPointer : Prop :=
  ∀ (s : State) (d : Byte) (k : Nat),
    let near := s.bus.read2 (s.dpLoc d.toNat true)
    let indexed := s.bus.read2 (s.dpLoc (d.toNat + s.xe.toNat) true)
    let far := s.bus.read3 (s.dpLoc d.toNat false)
    let stacked := s.bus.read2 (.bank0 (s.sp + BitVec.ofNat 16 d.toNat))
    let base := s.dbr.toNat * 65536
    (let r := s.effective (.idp d)
     (r.loc.addr k).toNat = (base + near.val.toNat + k) % 2 ^ 24 ∧ r.crossed = false ∧
     r.bus = near.bus) ∧
    (let r := s.effective (.idpx d)
     (r.loc.addr k).toNat = (base + indexed.val.toNat + k) % 2 ^ 24 ∧ r.crossed = false ∧
     r.bus = indexed.bus) ∧
    (let r := s.effective (.idpy d)
     (r.loc.addr k).toNat = (base + near.val.toNat + s.ye.toNat + k) % 2 ^ 24 ∧
     r.crossed = ((near.val.toNat + s.ye.toNat) / 256 != near.val.toNat / 256) ∧ r.bus = near.bus) ∧
    (let r := s.effective (.ildp d)
     (r.loc.addr k).toNat = (far.val.toNat + k) % 2 ^ 24 ∧ r.crossed = false ∧ r.bus = far.bus) ∧
    (let r := s.effective (.ildpy d)
     (r.loc.addr k).toNat = (far.val.toNat + s.ye.toNat + k) % 2 ^ 24 ∧ r.crossed = false ∧
     r.bus = far.bus) ∧
    (let r := s.effective (.isry d)
     (r.loc.addr k).toNat = (base + stacked.val.toNat + s.ye.toNat + k) % 2 ^ 24 ∧
     r.crossed = false ∧ r.bus = stacked.bus)

/-- The stack primitives (41_addressing.md R208, R209): where each byte goes, and S by number, in page 1
in emulation mode. -/
def Obligations.StackPrimitivesMoveTheStackPointer : Prop :=
  (∀ (s : State) (v : Byte), let t := s.push8 v
    t.bus = s.bus.storeByte (stackAddress s.sp) v ∧ (stackAddress s.sp).toNat = s.sp.toNat ∧
    t.sp.toNat = (if s.e then 0x100 + ((lowByte s.sp).toNat + 255) % 256
      else (s.sp.toNat + 0xFFFF) % 2 ^ 16) ∧
    KeepsFieldsBut [.sp] s t ∧ t.p = s.p) ∧
  (∀ s : State, let r := s.pull8
    r.st.sp.toNat = (if s.e then 0x100 + ((lowByte s.sp).toNat + 1) % 256
      else (s.sp.toNat + 1) % 2 ^ 16) ∧
    r.val = (s.bus.readByte (stackAddress r.st.sp)).val ∧
    r.st.bus = (s.bus.readByte (stackAddress r.st.sp)).bus ∧
    KeepsFieldsBut [.sp] s r.st ∧ r.st.p = s.p) ∧
  (∀ (s : State) (v : Word) (bank : Byte), s.push16 v = (s.push8 (highByte v)).push8 (lowByte v) ∧
    s.push24 bank v = (s.push8 bank).push16 v ∧
    s.pull16.val.toNat = s.pull8.val.toNat + 256 * s.pull8.st.pull8.val.toNat)

/-- A pull gives back what the push before it stored and restores S, where RAM answers for the stack;
for one byte and for two. In emulation mode S must be in page 1, as R33 has it. -/
def Obligations.PullGivesBackThePush : Prop :=
  (∀ (s : State) (v : Byte), s.bus.wf → (s.e = true → highByte s.sp = 0x01) →
    (∀ a ∈ pushSlots s.e 1 s.sp, s.bus.Holds a) →
    let r := (s.push8 v).pull8
    r.val = v ∧ KeepsFieldsBut [] s r.st ∧ r.st.p = s.p ∧ r.st.bus = (s.push8 v).bus) ∧
  (∀ (s : State) (v : Word), s.bus.wf → (s.e = true → highByte s.sp = 0x01) →
    (∀ a ∈ pushSlots s.e 2 s.sp, s.bus.Holds a) →
    let r := (s.push16 v).pull16
    r.val = v ∧ KeepsFieldsBut [] s r.st ∧ r.st.p = s.p ∧ r.st.bus = (s.push16 v).bus)

/-! ### Loads, stores, transfers and block moves -/

/-- LDA, every addressing mode (42_load_store_transfer.md R220). -/
def Obligations.LdaLoadsTheAccumulator : Prop :=
  ∀ (i : Instr) (o : Operand) (s : State), i.shape = .acc .lda o →
    let w := s.wm
    let l := s.load w o
    ∃ t, exec i s = .next t ∧ SetsAcc w l.value s t ∧ SetsNZ w l.value t ∧ t.bus = l.bus ∧
      Finishes i (o.len w) s t ∧ KeepsFieldsBut [.c, .pc, .cycles] s t ∧
      KeepsFlagsBut [.n, .z] s t ∧ KeepsMemory s t

/-- LDX and LDY, every addressing mode (R221, R222); a narrow load leaves the high byte 0. -/
def Obligations.LdxAndLdyLoadAnIndex : Prop :=
  ∀ (i : Instr) (o : Operand) (s : State),
    let w := s.wx
    let l := s.load w o
    (i.shape = .loadX o → ∃ t, exec i s = .next t ∧ t.x.toNat = l.value.toNat % 2 ^ w.bits ∧
      SetsNZ w l.value t ∧ t.bus = l.bus ∧ Finishes i (o.len w) s t ∧
      KeepsFieldsBut [.x, .pc, .cycles] s t ∧ KeepsFlagsBut [.n, .z] s t ∧ KeepsMemory s t) ∧
    (i.shape = .loadY o → ∃ t, exec i s = .next t ∧ t.y.toNat = l.value.toNat % 2 ^ w.bits ∧
      SetsNZ w l.value t ∧ t.bus = l.bus ∧ Finishes i (o.len w) s t ∧
      KeepsFieldsBut [.y, .pc, .cycles] s t ∧ KeepsFlagsBut [.n, .z] s t ∧ KeepsMemory s t)

/-- STA, STX, STY and STZ, every addressing mode (R223 to R226): the bytes stored, where, and nothing
else. -/
def Obligations.StoresWriteOnlyTheirOperand : Prop :=
  ∀ (i : Instr) (r : StoreReg) (m : MemMode) (s : State), i.shape = .store r m →
    let w := match r with | .a | .zero => s.wm | .x | .y => s.wx
    let v := match r with | .a => s.acc s.wm | .x => s.xe | .y => s.ye | .zero => 0
    let ea := s.effective m
    ∃ t, exec i s = .next t ∧ t.bus = ea.bus.writeW w ea.loc v ∧ StoresBytes w ea.loc v s t ∧
      t.p = s.p ∧ Finishes i m.len s t ∧ KeepsFieldsBut [.pc, .cycles] s t ∧
      KeepsMemoryBut (ea.loc.span w.bytes) s t

/-- TAX, TAY, TXA, TYA, TXY, TYX and TSX (R227 to R233): the width is the destination's. -/
def Obligations.TransfersTakeTheDestinationWidth : Prop :=
  ∀ s : State,
    (∃ t, exec .tax s = .next t ∧ t.x.toNat = s.c.toNat % 2 ^ s.wx.bits ∧ SetsNZ s.wx t.x t ∧
      RegisterOnly .tax [.x] [.n, .z] s t) ∧
    (∃ t, exec .tay s = .next t ∧ t.y.toNat = s.c.toNat % 2 ^ s.wx.bits ∧ SetsNZ s.wx t.y t ∧
      RegisterOnly .tay [.y] [.n, .z] s t) ∧
    (∃ t, exec .txa s = .next t ∧ SetsAcc s.wm s.xe s t ∧ SetsNZ s.wm (t.acc s.wm) t ∧
      RegisterOnly .txa [.c] [.n, .z] s t) ∧
    (∃ t, exec .tya s = .next t ∧ SetsAcc s.wm s.ye s t ∧ SetsNZ s.wm (t.acc s.wm) t ∧
      RegisterOnly .tya [.c] [.n, .z] s t) ∧
    (∃ t, exec .txy s = .next t ∧ t.y = s.xe ∧ SetsNZ s.wx t.y t ∧
      RegisterOnly .txy [.y] [.n, .z] s t) ∧
    (∃ t, exec .tyx s = .next t ∧ t.x = s.ye ∧ SetsNZ s.wx t.x t ∧
      RegisterOnly .tyx [.x] [.n, .z] s t) ∧
    (∃ t, exec .tsx s = .next t ∧ t.x.toNat = s.sp.toNat % 2 ^ s.wx.bits ∧ SetsNZ s.wx t.x t ∧
      RegisterOnly .tsx [.x] [.n, .z] s t)

/-- TXS, TCS, TSC, TCD, TDC and XBA (R234 to R239): all 16 bits whatever the widths, page 1 for S in
emulation mode, and no flag from a transfer into S. -/
def Obligations.FullWidthTransfers : Prop :=
  ∀ s : State,
    (∃ t, exec .txs s = .next t ∧
      t.sp.toNat = (if s.e then 0x100 + (lowByte s.xe).toNat else s.xe.toNat) ∧
      RegisterOnly .txs [.sp] [] s t) ∧
    (∃ t, exec .tcs s = .next t ∧ t.sp.toNat = (if s.e then 0x100 + s.a.toNat else s.c.toNat) ∧
      RegisterOnly .tcs [.sp] [] s t) ∧
    (∃ t, exec .tsc s = .next t ∧ t.c = s.sp ∧ SetsNZ .w16 s.sp t ∧
      RegisterOnly .tsc [.c] [.n, .z] s t) ∧
    (∃ t, exec .tcd s = .next t ∧ t.d = s.c ∧ SetsNZ .w16 s.c t ∧
      RegisterOnly .tcd [.d] [.n, .z] s t) ∧
    (∃ t, exec .tdc s = .next t ∧ t.c = s.d ∧ SetsNZ .w16 s.d t ∧
      RegisterOnly .tdc [.c] [.n, .z] s t) ∧
    (∃ t, exec .xba s = .next t ∧ t.a = s.b ∧ t.b = s.a ∧ t.flag .n = s.b.getLsbD 7 ∧
      t.flag .z = decide (s.b = 0) ∧ RegisterOnly .xba [.c] [.n, .z] s t)

/-- One call of MVN or MVP (R240, R241): one byte, the index steps, the count, and the program address
that stays until the count runs out. -/
def Obligations.BlockMoveMovesOneByte : Prop :=
  ∀ (dd ss : Byte) (s : State) (i : Instr), i = .mvn dd ss ∨ i = .mvp dd ss →
    let r := s.bus.readByte (mkAddress ss s.xe)
    let moved : Word → Word := fun v => if i = .mvn dd ss then v + 1 else v - 1
    ∃ t, exec i s = .next t ∧ t.dbr = dd ∧ t.bus = r.bus.storeByte (mkAddress dd s.ye) r.val ∧
      t.x = s.wx.trunc (moved s.xe) ∧ t.y = s.wx.trunc (moved s.ye) ∧ t.c = s.c - 1 ∧
      t.pc = (if t.c = 0xFFFF then s.pc + 3 else s.pc) ∧ t.cycles = s.cycles + i.cost s ∧
      t.p = s.p ∧ KeepsFieldsBut [.c, .x, .y, .dbr, .pc, .cycles] s t ∧
      KeepsMemoryBut [mkAddress dd s.ye] s t

/-- A block move runs to its end: after `C + 1` calls, the program address at the move for each of
them, C is 0xFFFF, the indexes have moved by `C + 1` at their width, the program address is past the
instruction and 7 cycles have gone by for each byte; no byte outside the destination bank changes. -/
def Obligations.BlockMoveRunsToItsEnd : Prop :=
  ∀ (dd ss : Byte) (s : State) (i : Instr), i = .mvn dd ss ∨ i = .mvp dd ss →
    let moved : Word → Word := fun v => if i = .mvn dd ss then v + (s.c + 1) else v - (s.c + 1)
    (∀ n ≤ s.c.toNat, ∃ u, execTimes n i s = .next u ∧ u.pc = s.pc ∧ u.pbr = s.pbr) ∧
    ∃ t, execTimes (s.c.toNat + 1) i s = .next t ∧ t.c = 0xFFFF ∧
      t.x = s.wx.trunc (moved s.xe) ∧ t.y = s.wx.trunc (moved s.ye) ∧ t.dbr = dd ∧
      t.pc = s.pc + 3 ∧ t.cycles = s.cycles + 7 * (s.c.toNat + 1) ∧ t.p = s.p ∧
      KeepsFieldsBut [.c, .x, .y, .dbr, .pc, .cycles] s t ∧
      ∀ a, bankOf a ≠ dd → t.bus.peek a = s.bus.peek a

/-! ### Arithmetic and logic -/

/-- ADC, every addressing mode (43_arith_logic.md R260): the rule's own sum, binary or decimal, on every
operand. -/
def Obligations.AdcFollowsItsRule : Prop :=
  ∀ (i : Instr) (o : Operand) (s : State), i.shape = .acc .adc o →
    let w := s.wm
    let l := s.load w o
    let r := adcRule w.bits (s.flag .d) (s.acc w).toNat l.value.toNat (if s.flag .c then 1 else 0)
    ∃ t v, exec i s = .next t ∧ ((BitVec.toNat v : Nat) : Int) = r.value ∧ SetsAcc w v s t ∧
      SetsNZ w v t ∧ t.flag .v = r.overflow ∧ t.flag .c = r.carry ∧ t.bus = l.bus ∧
      Finishes i (o.len w) s t ∧ KeepsFieldsBut [.c, .pc, .cycles] s t ∧
      KeepsFlagsBut [.n, .v, .z, .c] s t ∧ KeepsMemory s t

/-- SBC, every addressing mode (R261): the rule's own sum with the ones' complement of the operand,
binary or decimal, on every operand. -/
def Obligations.SbcFollowsItsRule : Prop :=
  ∀ (i : Instr) (o : Operand) (s : State), i.shape = .acc .sbc o →
    let w := s.wm
    let l := s.load w o
    let r := sbcRule w.bits (s.flag .d) (s.acc w).toNat (2 ^ w.bits - 1 - l.value.toNat)
      (if s.flag .c then 1 else 0)
    ∃ t v, exec i s = .next t ∧ ((BitVec.toNat v : Nat) : Int) = r.value ∧ SetsAcc w v s t ∧
      SetsNZ w v t ∧ t.flag .v = r.overflow ∧ t.flag .c = r.carry ∧ t.bus = l.bus ∧
      Finishes i (o.len w) s t ∧ KeepsFieldsBut [.c, .pc, .cycles] s t ∧
      KeepsFlagsBut [.n, .v, .z, .c] s t ∧ KeepsMemory s t

/-- Decimal mode is decimal arithmetic: on operands whose digits are 0 to 9, ADC and SBC give the sum and
the difference of the numbers they stand for, with carry and borrow, again in digits 0 to 9. -/
def Obligations.DecimalModeIsDecimalArithmetic : Prop :=
  ∀ (i : Instr) (o : Operand) (s : State), s.flag .d = true →
    let w := s.wm
    let b := (s.load w o).value
    let carry := if s.flag .c then 1 else 0
    isDecimal (s.acc w) → isDecimal b →
    (i.shape = .acc .adc o → ∃ t, exec i s = .next t ∧ isDecimal (t.acc w) ∧
      decimalValue (t.acc w) + (if t.flag .c then 10 ^ w.digits else 0)
        = decimalValue (s.acc w) + decimalValue b + carry) ∧
    (i.shape = .acc .sbc o → ∃ t, exec i s = .next t ∧ isDecimal (t.acc w) ∧
      decimalValue (t.acc w) + decimalValue b + (1 - carry)
        = decimalValue (s.acc w) + (if t.flag .c then 0 else 10 ^ w.digits))

/-- CMP, CPX and CPY, every addressing mode (R262 to R264): an unsigned comparison and the sign and
zero of the difference; no register is written. -/
def Obligations.ComparesSetOnlyFlags : Prop :=
  ∀ (i : Instr) (r : CompareReg) (o : Operand) (s : State), i.shape = .compare r o →
    let w := match r with | .a => s.wm | .x | .y => s.wx
    let a := match r with | .a => s.acc s.wm | .x => s.xe | .y => s.ye
    let l := s.load w o
    ∃ t, exec i s = .next t ∧ t.flag .c = decide (l.value.toNat ≤ a.toNat) ∧
      SetsNZ w (a - l.value) t ∧ t.bus = l.bus ∧ Finishes i (o.len w) s t ∧
      KeepsFieldsBut [.pc, .cycles] s t ∧ KeepsFlagsBut [.n, .z, .c] s t ∧ KeepsMemory s t

/-- AND, ORA and EOR, every addressing mode (R265 to R267). -/
def Obligations.LogicOperatesBitwise : Prop :=
  ∀ (i : Instr) (op : AccOp) (o : Operand) (s : State), i.shape = .acc op o →
    op = .and ∨ op = .ora ∨ op = .eor →
    let w := s.wm
    let l := s.load w o
    let v := match op with
      | .ora => s.acc w ||| l.value
      | .eor => s.acc w ^^^ l.value
      | .and | .lda | .adc | .sbc => s.acc w &&& l.value
    ∃ t, exec i s = .next t ∧ SetsAcc w v s t ∧ SetsNZ w v t ∧ t.bus = l.bus ∧
      Finishes i (o.len w) s t ∧ KeepsFieldsBut [.c, .pc, .cycles] s t ∧
      KeepsFlagsBut [.n, .z] s t ∧ KeepsMemory s t

/-- BIT, every addressing mode (R268): N and V from the operand's top bits in the memory forms only. -/
def Obligations.BitTestsTheOperand : Prop :=
  ∀ (i : Instr) (o : Operand) (s : State), i.shape = .bit o →
    let w := s.wm
    let l := s.load w o
    ∃ t, exec i s = .next t ∧ t.flag .z = decide (s.acc w &&& l.value = 0) ∧
      (match o with
        | .imm _ => KeepsFlagsBut [.z] s t
        | .mem _ => t.flag .n = l.value.getLsbD (w.bits - 1) ∧
            t.flag .v = l.value.getLsbD (w.bits - 2) ∧ KeepsFlagsBut [.n, .v, .z] s t) ∧
      t.bus = l.bus ∧ Finishes i (o.len w) s t ∧ KeepsFieldsBut [.pc, .cycles] s t ∧
      KeepsMemory s t

/-- ASL, LSR, ROL, ROR, INC, DEC, TSB and TRB, every form (41_addressing.md R211, R215; 43_arith_logic.md
R269 to R272; 44_shift_rotate.md R300 to R303): the operand read, the result by number, the flags, and
the write, high byte first in memory or into the accumulator at its width. -/
def Obligations.ModifyReadsThenWrites : Prop :=
  ∀ (i : Instr) (op : ModifyOp) (s : State),
    let w := s.wm
    let a := s.acc w
    let carry := if s.flag .c then 1 else 0
    (∀ m, i.shape = .modify op m →
      let ea := s.effective m
      let r := ea.bus.readW w ea.loc
      ∃ t v, exec i s = .next t ∧
        BitVec.toNat v = modifyRule op w.bits a.toNat r.val.toNat carry ∧
        t.bus = r.bus.writeHL w ea.loc v ∧ StoresBytes w ea.loc v s t ∧
        ModifyFlags op w a r.val v s t ∧ Finishes i m.len s t ∧
        KeepsFieldsBut [.pc, .cycles] s t ∧ KeepsMemoryBut (ea.loc.span w.bytes) s t) ∧
    (i.shape = .modifyA op →
      ∃ t v, exec i s = .next t ∧ BitVec.toNat v = modifyRule op w.bits a.toNat a.toNat carry ∧
        SetsAcc w v s t ∧ ModifyFlags op w a a v s t ∧ t.bus = s.bus ∧ Finishes i 1 s t ∧
        KeepsFieldsBut [.c, .pc, .cycles] s t ∧ KeepsMemory s t)

/-- INX, INY, DEX and DEY (43_arith_logic.md R273 to R276). -/
def Obligations.IndexStepsWrapAtTheirWidth : Prop :=
  ∀ s : State,
    (∃ t, exec .inx s = .next t ∧ t.x.toNat = (s.xe.toNat + 1) % 2 ^ s.wx.bits ∧ SetsNZ s.wx t.x t ∧
      RegisterOnly .inx [.x] [.n, .z] s t) ∧
    (∃ t, exec .iny s = .next t ∧ t.y.toNat = (s.ye.toNat + 1) % 2 ^ s.wx.bits ∧ SetsNZ s.wx t.y t ∧
      RegisterOnly .iny [.y] [.n, .z] s t) ∧
    (∃ t, exec .dex s = .next t ∧
      t.x.toNat = (s.xe.toNat + 2 ^ s.wx.bits - 1) % 2 ^ s.wx.bits ∧ SetsNZ s.wx t.x t ∧
      RegisterOnly .dex [.x] [.n, .z] s t) ∧
    (∃ t, exec .dey s = .next t ∧
      t.y.toNat = (s.ye.toNat + 2 ^ s.wx.bits - 1) % 2 ^ s.wx.bits ∧ SetsNZ s.wx t.y t ∧
      RegisterOnly .dey [.y] [.n, .z] s t)

/-! ### Branches, jumps, calls and returns -/

/-- BCC, BCS, BEQ, BNE, BMI, BPL, BVC, BVS and BRA (45_control.md R310 to R319): the target by number, in
the program bank, or the next instruction. -/
def Obligations.BranchesGoWhereTheirFlagSays : Prop :=
  ∀ (i : Instr) (cond : Option (Sys2Proof.Machine.Flag × Bool)) (r : Byte) (s : State),
    i.shape = .branch cond r →
    ∃ t, exec i s = .next t ∧
      ((t.pc.toNat : Int) = if branchTaken cond s then ((s.pc.toNat : Int) + 2 + r.toInt) % 2 ^ 16
        else ((s.pc.toNat : Int) + 2) % 2 ^ 16) ∧
      t.cycles = s.cycles + i.cost s ∧ t.p = s.p ∧ t.bus = s.bus ∧
      KeepsFieldsBut [.pc, .cycles] s t ∧ KeepsMemory s t

/-- BRL, JMP and JML (R320 to R322): the target, and the pointer read of the indirect forms. -/
def Obligations.JumpsGoToTheirTarget : Prop :=
  ∀ s : State,
    (∀ r : Word, ∃ t, exec (.brl r) s = .next t ∧
      (t.pc.toNat : Int) = ((s.pc.toNat : Int) + 3 + r.toInt) % 2 ^ 16 ∧ t.bus = s.bus ∧
      t.cycles = s.cycles + (Instr.brl r).cost s ∧ t.p = s.p ∧
      KeepsFieldsBut [.pc, .cycles] s t ∧ KeepsMemory s t) ∧
    (∀ a : Word, ∃ t, exec (.jmpJabs a) s = .next t ∧ t.pc = a ∧ t.bus = s.bus ∧
      t.cycles = s.cycles + (Instr.jmpJabs a).cost s ∧ t.p = s.p ∧
      KeepsFieldsBut [.pc, .cycles] s t ∧ KeepsMemory s t) ∧
    (∀ a : Word, let p := s.bus.read2 (.bank0 a)
      ∃ t, exec (.jmpIabs a) s = .next t ∧ t.pc = p.val ∧ t.bus = p.bus ∧
      t.cycles = s.cycles + (Instr.jmpIabs a).cost s ∧ t.p = s.p ∧
      KeepsFieldsBut [.pc, .cycles] s t ∧ KeepsMemory s t) ∧
    (∀ a : Word, let p := s.bus.read2 (.prog s.pbr (a + s.xe))
      ∃ t, exec (.jmpIabsx a) s = .next t ∧ t.pc = p.val ∧ t.bus = p.bus ∧
      t.cycles = s.cycles + (Instr.jmpIabsx a).cost s ∧ t.p = s.p ∧
      KeepsFieldsBut [.pc, .cycles] s t ∧ KeepsMemory s t) ∧
    (∀ a : Address, ∃ t, exec (.jmlJlong a) s = .next t ∧
      t.pbr.toNat * 0x10000 + t.pc.toNat = a.toNat ∧ t.bus = s.bus ∧
      t.cycles = s.cycles + (Instr.jmlJlong a).cost s ∧ t.p = s.p ∧
      KeepsFieldsBut [.pbr, .pc, .cycles] s t ∧ KeepsMemory s t) ∧
    (∀ a : Word, let p := s.bus.read3 (.bank0 a)
      ∃ t, exec (.jmlIlabs a) s = .next t ∧ t.pbr.toNat * 0x10000 + t.pc.toNat = p.val.toNat ∧
      t.bus = p.bus ∧ t.cycles = s.cycles + (Instr.jmlIlabs a).cost s ∧ t.p = s.p ∧
      KeepsFieldsBut [.pbr, .pc, .cycles] s t ∧ KeepsMemory s t)

/-- JSR, JSL, RTS and RTL (R323 to R326): what is pushed or pulled, and the target. -/
def Obligations.CallsPushAndReturnsPull : Prop :=
  ∀ s : State,
    (∀ a : Word, let u := s.push16 (s.pc + 2)
      ∃ t, exec (.jsrJabs a) s = .next t ∧ t.pc = a ∧ t.bus = u.bus ∧ t.sp = u.sp ∧
      t.cycles = s.cycles + (Instr.jsrJabs a).cost s ∧ t.p = s.p ∧
      KeepsFieldsBut [.sp, .pc, .cycles] s t ∧ KeepsMemoryBut (pushSlots s.e 2 s.sp) s t) ∧
    (∀ a : Word, let u := s.push16 (s.pc + 2)
      let p := u.bus.read2 (.prog s.pbr (a + s.xe))
      ∃ t, exec (.jsrIabsx a) s = .next t ∧ t.pc = p.val ∧ t.bus = p.bus ∧ t.sp = u.sp ∧
      t.cycles = s.cycles + (Instr.jsrIabsx a).cost s ∧ t.p = s.p ∧
      KeepsFieldsBut [.sp, .pc, .cycles] s t ∧ KeepsMemoryBut (pushSlots s.e 2 s.sp) s t) ∧
    (∀ a : Address, let u := (s.push8 s.pbr).push16 (s.pc + 3)
      ∃ t, exec (.jsl a) s = .next t ∧ t.pbr.toNat * 0x10000 + t.pc.toNat = a.toNat ∧
      t.bus = u.bus ∧ t.sp = u.sp ∧ t.cycles = s.cycles + (Instr.jsl a).cost s ∧ t.p = s.p ∧
      KeepsFieldsBut [.sp, .pbr, .pc, .cycles] s t ∧ KeepsMemoryBut (pushSlots s.e 3 s.sp) s t) ∧
    (let r := s.pull16
     ∃ t, exec .rts s = .next t ∧ t.pc = r.val + 1 ∧ t.bus = r.st.bus ∧ t.sp = r.st.sp ∧
      t.cycles = s.cycles + Instr.rts.cost s ∧ t.p = s.p ∧
      KeepsFieldsBut [.sp, .pc, .cycles] s t ∧ KeepsMemory s t) ∧
    (let r := s.pull16
     let b := r.st.pull8
     ∃ t, exec .rtl s = .next t ∧ t.pbr = b.val ∧ t.pc = r.val + 1 ∧ t.bus = b.st.bus ∧
      t.sp = b.st.sp ∧ t.cycles = s.cycles + Instr.rtl.cost s ∧ t.p = s.p ∧
      KeepsFieldsBut [.sp, .pbr, .pc, .cycles] s t ∧ KeepsMemory s t)

/-- A call and its return: RTS after JSR, and RTL after JSL, come back to the next instruction with S
and every register as before the call, where RAM answers for the pushed bytes. -/
def Obligations.ReturnComesBackFromCall : Prop :=
  ∀ s : State, s.bus.wf → (s.e = true → highByte s.sp = 0x01) →
    (∀ (a : Word) (i : Instr), i = .jsrJabs a ∨ i = .jsrIabsx a →
      (∀ slot ∈ pushSlots s.e 2 s.sp, s.bus.Holds slot) →
      ∃ u t, exec i s = .next u ∧ exec .rts u = .next t ∧ t.pc = s.pc + 3 ∧ t.p = s.p ∧
        KeepsFieldsBut [.pc, .cycles] s t) ∧
    (∀ a : Address, (∀ slot ∈ pushSlots s.e 3 s.sp, s.bus.Holds slot) →
      ∃ u t, exec (.jsl a) s = .next u ∧ exec .rtl u = .next t ∧ t.pc = s.pc + 4 ∧ t.p = s.p ∧
        KeepsFieldsBut [.pc, .cycles] s t)

/-! ### The stack -/

/-- PHA, PHB, PHD, PHK, PHP, PHX, PHY, PEA, PEI and PER (46_stack.md R340 to R346, R353 to R355). -/
def Obligations.PushesStoreTheirValue : Prop :=
  ∀ s : State,
    Pushes .pha 1 s.wm.bytes s (if s.accIs8 then s.push8 s.a else s.push16 s.c) ∧
    Pushes .phb 1 1 s (s.push8 s.dbr) ∧
    Pushes .phd 1 2 s (s.push16 s.d) ∧
    Pushes .phk 1 1 s (s.push8 s.pbr) ∧
    Pushes .php 1 1 s (s.push8 (if s.e then s.p ||| 0x30 else s.p)) ∧
    Pushes .phx 1 s.wx.bytes s (if s.indexIs8 then s.push8 (lowByte s.xe) else s.push16 s.xe) ∧
    Pushes .phy 1 s.wx.bytes s (if s.indexIs8 then s.push8 (lowByte s.ye) else s.push16 s.ye) ∧
    (∀ v : Word, Pushes (.pea v) 3 2 s (s.push16 v)) ∧
    (∀ d : Byte, let p := s.bus.read2 (s.dpLoc d.toNat false)
      Pushes (.pei d) 2 2 s ({ s with bus := p.bus }.push16 p.val)) ∧
    (∀ r : Word, Pushes (.per r) 3 2 s (s.push16 (s.pc + 3 + r)))

/-- PLA, PLX, PLY, PLB, PLD and PLP (R347 to R352). -/
def Obligations.PullsLoadTheirRegister : Prop :=
  ∀ s : State,
    let rm := s.pullW s.wm
    let rx := s.pullW s.wx
    let r8 := s.pull8
    let r16 := s.pull16
    (∀ w, (s.pullW w).val.toNat = if w = .w8 then r8.val.toNat else r16.val.toNat) ∧
    (∃ t, exec .pla s = .next t ∧ SetsAcc s.wm rm.val s t ∧ SetsNZ s.wm rm.val t ∧
      t.bus = rm.st.bus ∧ t.sp = rm.st.sp ∧ Finishes .pla 1 s t ∧
      KeepsFieldsBut [.c, .sp, .pc, .cycles] s t ∧ KeepsFlagsBut [.n, .z] s t ∧ KeepsMemory s t) ∧
    (∃ t, exec .plx s = .next t ∧ t.x = rx.val ∧ SetsNZ s.wx rx.val t ∧
      t.bus = rx.st.bus ∧ t.sp = rx.st.sp ∧ Finishes .plx 1 s t ∧
      KeepsFieldsBut [.x, .sp, .pc, .cycles] s t ∧ KeepsFlagsBut [.n, .z] s t ∧ KeepsMemory s t) ∧
    (∃ t, exec .ply s = .next t ∧ t.y = rx.val ∧ SetsNZ s.wx rx.val t ∧
      t.bus = rx.st.bus ∧ t.sp = rx.st.sp ∧ Finishes .ply 1 s t ∧
      KeepsFieldsBut [.y, .sp, .pc, .cycles] s t ∧ KeepsFlagsBut [.n, .z] s t ∧ KeepsMemory s t) ∧
    (∃ t, exec .plb s = .next t ∧ t.dbr = r8.val ∧ t.flag .n = r8.val.getLsbD 7 ∧
      t.flag .z = decide (r8.val = 0) ∧ t.bus = r8.st.bus ∧ t.sp = r8.st.sp ∧ Finishes .plb 1 s t ∧
      KeepsFieldsBut [.dbr, .sp, .pc, .cycles] s t ∧ KeepsFlagsBut [.n, .z] s t ∧
      KeepsMemory s t) ∧
    (∃ t, exec .pld s = .next t ∧ t.d = r16.val ∧ SetsNZ .w16 r16.val t ∧
      t.bus = r16.st.bus ∧ t.sp = r16.st.sp ∧ Finishes .pld 1 s t ∧
      KeepsFieldsBut [.d, .sp, .pc, .cycles] s t ∧ KeepsFlagsBut [.n, .z] s t ∧ KeepsMemory s t) ∧
    (∃ t, exec .plp s = .next t ∧ WritesP r8.val s t ∧ t.bus = r8.st.bus ∧ t.sp = r8.st.sp ∧
      Finishes .plp 1 s t ∧ KeepsFieldsBut [.x, .y, .sp, .pc, .cycles] s t ∧ KeepsMemory s t)

/-! ### Status, modes, software interrupts and run state -/

/-- CLC, CLD, CLI, CLV, SEC, SED and SEI (47_status_system.md R371 to R377): one flag and nothing else. -/
def Obligations.FlagInstructionsWriteOneFlag : Prop :=
  ∀ (s : State) (i : Instr) (f : Sys2Proof.Machine.Flag) (v : Bool),
    (i, f, v) ∈ [(Instr.clc, Sys2Proof.Machine.Flag.c, false), (.cld, .d, false), (.cli, .i, false),
      (.clv, .v, false), (.sec, .c, true), (.sed, .d, true), (.sei, .i, true)] →
    ∃ t, exec i s = .next t ∧ t.flag f = v ∧ RegisterOnly i [] [f] s t

/-- REP and SEP (R378, R379) through `WriteP` (R370): M and X stay set in emulation mode; a set X clears
XH and YH; B is kept. -/
def Obligations.RepAndSepWriteP : Prop :=
  ∀ (mask : Byte) (s : State),
    (∃ t, exec (.rep mask) s = .next t ∧ WritesP (s.p &&& (mask ^^^ 0xFF)) s t ∧ t.bus = s.bus ∧
      Finishes (.rep mask) 2 s t ∧ KeepsFieldsBut [.x, .y, .pc, .cycles] s t ∧ KeepsMemory s t) ∧
    (∃ t, exec (.sep mask) s = .next t ∧ WritesP (s.p ||| mask) s t ∧ t.bus = s.bus ∧
      Finishes (.sep mask) 2 s t ∧ KeepsFieldsBut [.x, .y, .pc, .cycles] s t ∧ KeepsMemory s t)

/-- XCE (R380): C and E exchanged; in emulation mode after it M and X are set, XH and YH are 0 and S
is in page 1; else nothing but C and E changes. -/
def Obligations.XceExchangesCarryAndEmulation : Prop :=
  ∀ s : State, ∃ t, exec .xce s = .next t ∧ t.e = s.flag .c ∧ t.flag .c = s.e ∧
    (t.e = true → t.flag .m = true ∧ t.flag .x = true ∧ t.x = s.x &&& 0xFF ∧ t.y = s.y &&& 0xFF ∧
      t.sp.toNat = 0x100 + s.sp.toNat % 256 ∧ KeepsFlagsBut [.c, .m, .x] s t) ∧
    (t.e = false → t.x = s.x ∧ t.y = s.y ∧ t.sp = s.sp ∧ KeepsFlagsBut [.c] s t) ∧
    t.bus = s.bus ∧ Finishes .xce 1 s t ∧ KeepsFieldsBut [.e, .x, .y, .sp, .pc, .cycles] s t ∧
    KeepsMemory s t

/-- BRK and COP (R381, R382) enter their handler as 60_exceptions.md R410 says, through the vectors of
R411: PBR pushed in native mode only, then the address past the signature byte, then P with bits 5 and 4
set in emulation mode; then I set, D cleared, the handler in bank 0. -/
def Obligations.BrkAndCopEnterTheirHandler : Prop :=
  ∀ (sig : Byte) (s : State) (i : Instr), i = .brk sig ∨ i = .cop sig →
    let u := ((if s.e then s else s.push8 s.pbr).push16 (s.pc + 2)).push8
      (if s.e then s.p ||| 0x30 else s.p)
    let vector := if i = .brk sig then (if s.e then s.cfg.vecE.irqbrk else s.cfg.vecN.brk)
      else (if s.e then s.cfg.vecE.cop else s.cfg.vecN.cop)
    ∃ t, exec i s = .next t ∧ t.bus = u.bus ∧ t.sp = u.sp ∧ t.flag .i = true ∧ t.flag .d = false ∧
      KeepsFlagsBut [.i, .d] s t ∧ t.pbr = 0 ∧ t.pc = vector ∧
      t.cycles = s.cycles + (if s.e then 7 else 8) ∧
      KeepsFieldsBut [.sp, .pbr, .pc, .cycles] s t ∧
      KeepsMemoryBut (pushSlots s.e (if s.e then 3 else 4) s.sp) s t

/-- RTI (R383): P through `WriteP`, then PC, then PBR in native mode only; E is not restored. -/
def Obligations.RtiRestoresPThenPc : Prop :=
  ∀ s : State, let p := s.pull8
    let r := p.st.pull16
    let b := r.st.pull8
    ∃ t, exec .rti s = .next t ∧ WritesP p.val s t ∧ t.pc = r.val ∧
      t.pbr = (if s.e then s.pbr else b.val) ∧
      t.bus = (if s.e then r.st.bus else b.st.bus) ∧ t.sp = (if s.e then r.st.sp else b.st.sp) ∧
      t.cycles = s.cycles + Instr.rti.cost s ∧
      KeepsFieldsBut [.x, .y, .sp, .pbr, .pc, .cycles] s t ∧ KeepsMemory s t

/-- An interrupt is undone by its return: RTI after BRK or COP goes to the instruction after the
signature byte with P, S and every register as before, where RAM answers for the frame. In emulation
mode PBR is not saved, so it is the 0 of the handler. -/
def Obligations.RtiUndoesBrkAndCop : Prop :=
  ∀ (sig : Byte) (s : State) (i : Instr), i = .brk sig ∨ i = .cop sig → s.Inv →
    (∀ a ∈ pushSlots s.e (if s.e then 3 else 4) s.sp, s.bus.Holds a) →
    ∃ u t, exec i s = .next u ∧ exec .rti u = .next t ∧ t.pc = s.pc + 2 ∧ t.p = s.p ∧
      t.pbr = (if s.e then 0 else s.pbr) ∧ KeepsFieldsBut [.pbr, .pc, .cycles] s t

/-- WAI, STP, NOP and WDM (47_status_system.md R384 to R387): the run state and the end of the
instruction, or the end alone; the calls of WAI and STP return false. -/
def Obligations.WaiStpNopWdmDoLittle : Prop :=
  ∀ s : State,
    (∃ t, exec .wai s = .next t ∧ t.run = .waiting ∧ RegisterOnly .wai [.run] [] s t) ∧
    (∃ t, exec .stp s = .next t ∧ t.run = .stopped ∧ RegisterOnly .stp [.run] [] s t) ∧
    (∃ t, exec .nop s = .next t ∧ RegisterOnly .nop [] [] s t) ∧
    (∀ sig : Byte, ∃ t, exec (.wdm sig) s = .next t ∧ t.bus = s.bus ∧ t.p = s.p ∧
      Finishes (.wdm sig) 2 s t ∧ KeepsFieldsBut [.pc, .cycles] s t ∧ KeepsMemory s t) ∧
    (s.Executing → s.fetch.val = .wai ∨ s.fetch.val = .stp → s.executeNextInstruction.1 = false)

/-! ### The host reads the state -/

/-- The host can read all state between calls (60_exceptions.md R433; 40_core_loop.md R168): a getter
changes nothing, and two states that answer every getter alike agree on every register, flag, pin, the
counter, the run state and the state of every device. The configuration is no state (10_state.md
R49), and which addresses a device decodes is the host's own (20_memory.md R75). -/
def Obligations.HostReadsAllState : Prop :=
  (∀ (h : HostAction) (s : State), h.isGetter = true → (h.apply s).2 = s) ∧
  (∀ s t : State,
    (∀ h : HostAction, h.isGetter = true → (h.apply t).1 = (h.apply s).1) →
    KeepsFieldsBut [.cfg] s t ∧ t.p = s.p ∧
      ∀ i : Nat, t.bus.deviceState i = s.bus.deviceState i)
end

