-- ==== Sys2Proof/Laws/Bits.lean ====
section
/-! SUPPORT. Bytes in words and offsets in addresses, through the numbers they stand for. -/

namespace Sys2Proof.Machine

theorem lowByte_toNat (v : Word) : (lowByte v).toNat = v.toNat % 256 := by
  simp [lowByte, BitVec.extractLsb'_toNat]

theorem highByte_toNat (v : Word) : (highByte v).toNat = v.toNat / 256 := by
  have := v.isLt
  simp only [highByte, BitVec.extractLsb'_toNat, Nat.shiftRight_eq_div_pow]
  omega

theorem joinBytes_toNat (hi lo : Byte) : (joinBytes hi lo).toNat = hi.toNat * 256 + lo.toNat := by
  have := lo.isLt
  have h := Nat.two_pow_add_eq_or_of_lt this hi.toNat
  rw [joinBytes, BitVec.toNat_append, Nat.shiftLeft_eq, Nat.mul_comm, ← h]

@[simp] theorem lowByte_joinBytes (hi lo : Byte) : lowByte (joinBytes hi lo) = lo := by
  have := lo.isLt
  apply BitVec.eq_of_toNat_eq
  rw [lowByte_toNat, joinBytes_toNat]; omega

@[simp] theorem highByte_joinBytes (hi lo : Byte) : highByte (joinBytes hi lo) = hi := by
  have := lo.isLt
  apply BitVec.eq_of_toNat_eq
  rw [highByte_toNat, joinBytes_toNat]; omega

@[simp] theorem joinBytes_highByte_lowByte (v : Word) : joinBytes (highByte v) (lowByte v) = v := by
  apply BitVec.eq_of_toNat_eq
  rw [joinBytes_toNat, highByte_toNat, lowByte_toNat]; omega

theorem mkAddress_toNat (b : Byte) (o : Word) : (mkAddress b o).toNat = b.toNat * 65536 + o.toNat := by
  have := o.isLt
  have h := Nat.two_pow_add_eq_or_of_lt this b.toNat
  rw [mkAddress, BitVec.toNat_append, Nat.shiftLeft_eq, Nat.mul_comm, ← h]

theorem bankOf_toNat (a : Address) : (bankOf a).toNat = a.toNat / 65536 := by
  have := a.isLt
  simp only [bankOf, BitVec.extractLsb'_toNat, Nat.shiftRight_eq_div_pow]
  omega

theorem offsetOf_toNat (a : Address) : (offsetOf a).toNat = a.toNat % 65536 := by
  simp [offsetOf, BitVec.extractLsb'_toNat]

@[simp] theorem bankOf_mkAddress (b : Byte) (o : Word) : bankOf (mkAddress b o) = b := by
  have := o.isLt
  apply BitVec.eq_of_toNat_eq
  rw [bankOf_toNat, mkAddress_toNat]; omega

@[simp] theorem offsetOf_mkAddress (b : Byte) (o : Word) : offsetOf (mkAddress b o) = o := by
  have := o.isLt
  apply BitVec.eq_of_toNat_eq
  rw [offsetOf_toNat, mkAddress_toNat]; omega

theorem mkAddress_inj {b b' : Byte} {o o' : Word} : mkAddress b o = mkAddress b' o' ↔ b = b' ∧ o = o' := by
  constructor
  · intro h
    exact ⟨by simpa using congrArg bankOf h, by simpa using congrArg offsetOf h⟩
  · rintro ⟨rfl, rfl⟩; rfl

theorem joinBytes_inj {h h' l l' : Byte} : joinBytes h l = joinBytes h' l' ↔ h = h' ∧ l = l' := by
  constructor
  · intro e
    exact ⟨by simpa using congrArg highByte e, by simpa using congrArg lowByte e⟩
  · rintro ⟨rfl, rfl⟩; rfl

theorem zeroExtend8_toNat (b : Byte) : (zeroExtend8 b).toNat = b.toNat := by
  have := b.isLt
  simp only [zeroExtend8, BitVec.toNat_setWidth]; omega

theorem zeroExtend16_toNat (v : Word) : (zeroExtend16 v).toNat = v.toNat := by
  have := v.isLt
  simp only [zeroExtend16, BitVec.toNat_setWidth]; omega

@[simp] theorem lowByte_zeroExtend8 (b : Byte) : lowByte (zeroExtend8 b) = b := by
  have := b.isLt
  apply BitVec.eq_of_toNat_eq
  rw [lowByte_toNat, zeroExtend8_toNat]; omega

@[simp] theorem highByte_zeroExtend8 (b : Byte) : highByte (zeroExtend8 b) = 0 := by
  have := b.isLt
  apply BitVec.eq_of_toNat_eq
  rw [highByte_toNat, zeroExtend8_toNat, Nat.div_eq_of_lt this]; rfl

end Sys2Proof.Machine
end

