-- ==== Sys2Proof/Laws/Bus.lean ====
section
/-! SUPPORT. Read after write, the canonical form, and what a bus access leaves alone. -/

namespace Sys2Proof.Machine

/-! ### Bytes of a RAM device -/

theorem Memory.read_write_ne (m : Memory) {a a' : Nat} (h : a' ≠ a) (v : Byte) :
    Memory.read (Memory.write m a v) a' = Memory.read m a' := by
  induction m with
  | nil => simp only [write]; split <;> simp [read, Ne.symm h]
  | cons c rest ih =>
    obtain ⟨k, w⟩ := c
    simp only [write]
    split
    · split <;> simp [read, Ne.symm h]
    · split
      · rename_i _ hk; subst hk
        split <;> simp [read, Ne.symm h]
      · simp only [read]
        split
        · rfl
        · exact ih

theorem Memory.read_of_lt {m : Memory} {a : Nat} (h : ∀ c ∈ m, a < c.1) : Memory.read m a = Memory.unlisted := by
  induction m with
  | nil => rfl
  | cons c rest ih =>
    obtain ⟨k, w⟩ := c
    have hk : a < k := h (k, w) (by simp)
    rw [read, if_neg (by omega)]
    exact ih fun c hc => h c (by simp [hc])

theorem Memory.read_write_self {m : Memory} (hm : Memory.wf m) (a : Nat) (v : Byte) :
    Memory.read (Memory.write m a v) a = v := by
  obtain ⟨hs, -⟩ := hm
  induction m with
  | nil => simp only [write]; split <;> simp_all [read]
  | cons c rest ih =>
    obtain ⟨k, w⟩ := c
    rw [List.pairwise_cons] at hs
    simp only [write]
    split
    · rename_i hak
      split
      · rename_i hv; subst hv
        apply read_of_lt
        intro c hc
        rcases List.mem_cons.mp hc with rfl | hc
        · exact hak
        · exact lt_trans hak (hs.1 c hc)
      · simp [read]
    · split
      · rename_i _ hk; subst hk
        split
        · rename_i hv; subst hv
          exact read_of_lt hs.1
        · simp [read]
      · rename_i hk
        rw [read, if_neg hk]
        exact ih hs.2

theorem Memory.write_keys {m : Memory} {a : Nat} {v : Byte} {c : Host.Cell}
    (h : c ∈ Memory.write m a v) : c = (a, v) ∧ v ≠ Memory.unlisted ∨ c ∈ m := by
  induction m with
  | nil => simp only [write] at h; split at h <;> simp_all
  | cons d rest ih =>
    obtain ⟨k, w⟩ := d
    simp only [write] at h
    split at h
    · split at h <;> simp_all
    · split at h
      · split at h
        · simp_all
        · simp_all; tauto
      · rcases List.mem_cons.mp h with rfl | h
        · simp
        · rcases ih h with h | h
          · exact .inl h
          · exact .inr (by simp [h])

theorem Memory.wf_write {m : Memory} (hm : Memory.wf m) {a : Nat} (ha : a < 2 ^ 24) (v : Byte) :
    Memory.wf (Memory.write m a v) := by
  refine ⟨?_, ?_⟩
  · obtain ⟨hs, -⟩ := hm
    induction m with
    | nil => simp only [write]; split <;> simp
    | cons c rest ih =>
      obtain ⟨k, w⟩ := c
      have hs' := List.pairwise_cons.mp hs
      simp only [write]
      split
      · split
        · exact hs
        · rename_i hak _
          refine List.pairwise_cons.mpr ⟨?_, hs⟩
          intro c hc
          rcases List.mem_cons.mp hc with rfl | hc
          · exact hak
          · exact lt_trans hak (hs'.1 c hc)
      · split
        · rename_i _ hk; subst hk
          split
          · exact hs'.2
          · exact List.pairwise_cons.mpr hs'
        · refine List.pairwise_cons.mpr ⟨?_, ih hs'.2⟩
          intro c hc
          rcases write_keys hc with ⟨rfl, -⟩ | hc
          · simp only; omega
          · exact hs'.1 c hc
  · intro c hc
    rcases write_keys hc with ⟨rfl, h⟩ | hc
    · exact ⟨ha, h⟩
    · exact hm.2 c hc

theorem Memory.wf_nil : Memory.wf [] := ⟨List.Pairwise.nil, by simp⟩

theorem Memory.wf_ofCells (cells : List Host.Cell) : Memory.wf (Memory.ofCells cells) := by
  unfold ofCells
  suffices ∀ m : Memory, Memory.wf m →
      Memory.wf (cells.foldl (fun m c => Memory.write m (c.1 % 2 ^ 24) c.2) m) from this [] wf_nil
  induction cells with
  | nil => exact fun m hm => hm
  | cons c rest ih => exact fun m hm => ih _ (wf_write hm (Nat.mod_lt _ (by decide)) c.2)

/-! ### Devices -/

@[simp] theorem Device.decode_read (d : Device) (l a : Address) : (d.read l).dev.decode a = d.decode a := by
  cases d <;> rfl

@[simp] theorem Device.decode_store (d : Device) (l : Address) (v : Byte) (a : Address) :
    (d.store l v).decode a = d.decode a := by
  cases d <;> rfl

theorem Device.wf_read {d : Device} (h : d.wf = true) (l : Address) : (d.read l).dev.wf = true := by
  cases d <;> exact h

theorem Device.wf_store {d : Device} (h : d.wf = true) (l : Address) (v : Byte) : (d.store l v).wf = true := by
  cases d with
  | ram lo hi cells =>
    simp only [wf, decide_eq_true_eq] at h
    simpa only [store, wf, decide_eq_true_eq] using Memory.wf_write h l.isLt v
  | external id st => rfl

/-! ### Resolution -/

theorem resolveIn_spec {ds : List Device} {a : Address} {c : Claim} (h : resolveIn ds a = some c) :
    ds[c.index]? = some c.dev ∧ c.dev.decode a = some c.loc ∧
      ∀ (j : Nat) (d : Device), j < c.index → ds[j]? = some d → d.decode a = none := by
  induction ds generalizing c with
  | nil => simp [resolveIn] at h
  | cons d rest ih =>
    simp only [resolveIn] at h
    split at h
    · rename_i l hl
      obtain rfl : _ = c := by simpa using h
      simp [hl]
    · rename_i hd
      obtain ⟨c', hc', rfl⟩ := Option.map_eq_some_iff.mp h
      obtain ⟨h1, h2, h3⟩ := ih hc'
      refine ⟨by simpa using h1, h2, ?_⟩
      intro j e hj he
      cases j with
      | zero => simp only [List.getElem?_cons_zero, Option.some.injEq] at he; rw [← he]; exact hd
      | succ j => exact h3 j e (by simpa using hj) (by simpa using he)

theorem resolveIn_none {ds : List Device} {a : Address} :
    resolveIn ds a = none ↔ ∀ d ∈ ds, d.decode a = none := by
  induction ds with
  | nil => simp [resolveIn]
  | cons d rest ih =>
    simp only [resolveIn]
    split
    · rename_i l hl; simp [hl]
    · rename_i hd; simp [hd, ih]

theorem resolveIn_append (ds : List Device) (d : Device) (a : Address) :
    resolveIn (ds ++ [d]) a = match resolveIn ds a with
      | some c => some c
      | none => (d.decode a).map fun l => { index := ds.length, dev := d, loc := l } := by
  induction ds with
  | nil =>
    simp only [List.nil_append, resolveIn]
    cases d.decode a <;> rfl
  | cons e rest ih =>
    simp only [List.cons_append, resolveIn]
    cases e.decode a with
    | some l => rfl
    | none =>
      simp only [ih]
      cases resolveIn rest a with
      | some c => rfl
      | none => cases d.decode a <;> rfl

/-- The claim an address has once the device at place `i` is in another state. -/
def Claim.update (c : Claim) (i : Nat) (d : Device) : Claim := if c.index = i then { c with dev := d } else c

theorem resolveIn_set {ds : List Device} {i : Nat} {d d' : Device} (hi : ds[i]? = some d)
    (hd : ∀ a, d'.decode a = d.decode a) (a : Address) :
    resolveIn (ds.set i d') a = (resolveIn ds a).map fun c => c.update i d' := by
  induction ds generalizing i with
  | nil => simp at hi
  | cons e rest ih =>
    cases i with
    | zero =>
      obtain rfl : e = d := by simpa using hi
      simp only [List.set_cons_zero, resolveIn, hd]
      cases e.decode a with
      | some l => simp [Claim.update]
      | none => cases resolveIn rest a <;> simp [Claim.update]
    | succ i =>
      simp only [List.set_cons_succ, resolveIn]
      cases e.decode a with
      | some l => simp [Claim.update]
      | none =>
        simp only [ih (by simpa using hi)]
        cases resolveIn rest a with
        | none => rfl
        | some c =>
          by_cases h : c.index = i <;> simp [Claim.update, h]

theorem Bus.resolve_setDevice {b : Bus} {a : Address} {c : Claim} (h : b.resolve a = some c) {d : Device}
    (hd : ∀ x, d.decode x = c.dev.decode x) (x : Address) :
    (b.setDevice c.index d).resolve x = (b.resolve x).map fun c' => c'.update c.index d :=
  resolveIn_set (resolveIn_spec h).1 hd x

/-- A device in another state claims what it claimed. -/
theorem Bus.claims_setDevice {b : Bus} {a : Address} {c : Claim} (h : b.resolve a = some c) {d : Device}
    (hd : ∀ x, d.decode x = c.dev.decode x) (x : Address) :
    (b.setDevice c.index d).Claims x ↔ b.Claims x := by
  simp only [Claims, resolve_setDevice h hd, Option.isSome_map]

/-- A new device takes no claim away, and adds those of its own decode. -/
theorem Bus.claims_registerDevice (b : Bus) (d : Device) (a : Address) :
    (b.registerDevice d).Claims a ↔ b.Claims a ∨ (d.decode a).isSome := by
  simp only [Claims, resolve, registerDevice, resolveIn_append]
  cases resolveIn b.devices a <;> simp

theorem Bus.claim_dev_eq {b : Bus} {a x : Address} {c c' : Claim} (h : b.resolve a = some c)
    (h' : b.resolve x = some c') (hi : c'.index = c.index) : c'.dev = c.dev := by
  have h1 := (resolveIn_spec h).1
  have h2 := (resolveIn_spec h').1
  rw [hi, h1] at h2
  exact (Option.some.inj h2).symm

/-! ### What an access leaves alone -/

theorem Bus.setDevice_self {b : Bus} {a : Address} {c : Claim} (h : b.resolve a = some c) :
    b.setDevice c.index c.dev = b := by
  have h1 := (resolveIn_spec h).1
  obtain ⟨hlt, he⟩ := List.getElem?_eq_some_iff.mp h1
  simp only [setDevice, ← he, List.set_getElem_self]

/-- A RAM device claims an address as itself. -/
theorem Device.decode_ram_eq {lo hi : Nat} {cells : Memory} {a l : Address}
    (h : (Device.ram lo hi cells).decode a = some l) : l = a := by
  simp only [decode] at h
  split at h <;> simp_all

/-- A byte the model can read without the access is what the access answers, and the access changes
nothing. -/
theorem Bus.readByte_of_peek {b : Bus} {a : Address} {v : Byte} (h : b.peek a = some v) :
    b.readByte a = { val := v, bus := b } := by
  unfold peek at h
  unfold readByte
  cases hr : b.resolve a with
  | none => simp_all
  | some c =>
    simp only [hr] at h ⊢
    cases hd : c.dev with
    | ram lo hi cells =>
      simp only [hd, Option.some.injEq] at h
      simp only [Device.read, h, BusRead.mk.injEq, true_and]
      rw [← hd]
      exact setDevice_self hr
    | external id st => simp [hd] at h

@[simp] theorem Bus.claims_readByte (b : Bus) (a x : Address) : (b.readByte a).bus.Claims x ↔ b.Claims x := by
  unfold readByte
  cases hr : b.resolve a with
  | none => rfl
  | some c => exact claims_setDevice hr (Device.decode_read c.dev c.loc) x

@[simp] theorem Bus.claims_storeByte (b : Bus) (a x : Address) (v : Byte) :
    (b.storeByte a v).Claims x ↔ b.Claims x := by
  unfold storeByte
  cases hr : b.resolve a with
  | none => rfl
  | some c => exact claims_setDevice hr (Device.decode_store c.dev c.loc v) x

@[simp] theorem Bus.peek_readByte (b : Bus) (a x : Address) : (b.readByte a).bus.peek x = b.peek x := by
  unfold readByte
  cases hr : b.resolve a with
  | none => rfl
  | some c =>
    simp only [peek, resolve_setDevice hr (Device.decode_read c.dev c.loc)]
    cases hx : b.resolve x with
    | none => rfl
    | some c' =>
      simp only [Option.map_some, Claim.update]
      by_cases hi : c'.index = c.index
      · rw [if_pos hi, claim_dev_eq hr hx hi]
        cases c.dev <;> rfl
      · rw [if_neg hi]

theorem Bus.peek_storeByte_ne (b : Bus) {a x : Address} (hx : x ≠ a) (v : Byte) :
    (b.storeByte a v).peek x = b.peek x := by
  unfold storeByte
  cases hr : b.resolve a with
  | none => rfl
  | some c =>
    simp only [peek, resolve_setDevice hr (Device.decode_store c.dev c.loc v)]
    cases hx' : b.resolve x with
    | none => rfl
    | some c' =>
      simp only [Option.map_some, Claim.update]
      by_cases hi : c'.index = c.index
      · rw [if_pos hi]
        have hdev := claim_dev_eq hr hx' hi
        have hl := (resolveIn_spec hr).2.1
        have hl' := (resolveIn_spec hx').2.1
        rw [hdev] at hl' ⊢
        cases hd : c.dev with
        | external id st => rfl
        | ram lo hi cells =>
          rw [hd] at hl hl'
          have e := Device.decode_ram_eq hl
          have e' := Device.decode_ram_eq hl'
          simp only [Device.store, e, e', Option.some.injEq]
          refine Memory.read_write_ne cells ?_ v
          exact fun h => hx (BitVec.eq_of_toNat_eq h)
      · rw [if_neg hi]

theorem Bus.Holds.peek_storeByte {b : Bus} {a : Address} (h : b.Holds a) (hb : b.wf) (v : Byte) :
    (b.storeByte a v).peek a = some v := by
  obtain ⟨i, lo, hi, cells, l, hr⟩ := h
  have hmem : Device.ram lo hi cells ∈ b.devices := List.mem_of_getElem? (resolveIn_spec hr).1
  have hwf : Memory.wf cells := of_decide_eq_true (hb _ hmem)
  have hset := resolve_setDevice hr (Device.decode_store (.ram lo hi cells) l v) a
  simp only [Device.store, hr, Option.map_some, Claim.update, if_true] at hset
  simp only [storeByte, hr, peek, Device.store, hset, Option.some.injEq]
  exact Memory.read_write_self hwf l.toNat v

theorem Bus.readByte_unclaimed {b : Bus} {a : Address} (h : b.resolve a = none) :
    b.readByte a = { val := 0x00, bus := b } := by simp [readByte, h]

theorem Bus.storeByte_unclaimed {b : Bus} {a : Address} (h : b.resolve a = none) (v : Byte) :
    b.storeByte a v = b := by simp [storeByte, h]

theorem Bus.Holds.readByte {b : Bus} {x : Address} (h : b.Holds x) (a : Address) :
    (b.readByte a).bus.Holds x := by
  obtain ⟨i, lo, hi, cells, l, hx⟩ := h
  unfold Bus.readByte
  cases hr : b.resolve a with
  | none => exact ⟨i, lo, hi, cells, l, hx⟩
  | some c =>
    simp only [Holds, resolve_setDevice hr (Device.decode_read c.dev c.loc), hx, Option.map_some,
      Claim.update]
    split
    · rename_i hi'
      have hd := claim_dev_eq hr hx hi'
      simp only at hd
      exact ⟨i, lo, hi, cells, l, by simp [← hd, Device.read]⟩
    · exact ⟨i, lo, hi, cells, l, rfl⟩

theorem Bus.Holds.storeByte {b : Bus} {x : Address} (h : b.Holds x) (a : Address) (v : Byte) :
    (b.storeByte a v).Holds x := by
  obtain ⟨i, lo, hi, cells, l, hx⟩ := h
  unfold Bus.storeByte
  cases hr : b.resolve a with
  | none => exact ⟨i, lo, hi, cells, l, hx⟩
  | some c =>
    simp only [Holds, resolve_setDevice hr (Device.decode_store c.dev c.loc v), hx, Option.map_some,
      Claim.update]
    split
    · rename_i hi'
      have hd := claim_dev_eq hr hx hi'
      simp only at hd
      exact ⟨i, lo, hi, cells.write c.loc.toNat v, l, by simp [← hd, Device.store]⟩
    · exact ⟨i, lo, hi, cells, l, rfl⟩

/-! ### The canonical form -/

theorem Bus.wf_setDevice {b : Bus} (hb : b.wf) {d : Device} (hd : d.wf = true) (i : Nat) :
    (b.setDevice i d).wf := by
  intro e he
  rcases List.mem_or_eq_of_mem_set he with he | rfl
  · exact hb e he
  · exact hd

theorem Bus.wf_claim {b : Bus} (hb : b.wf) {a : Address} {c : Claim} (h : b.resolve a = some c) :
    c.dev.wf = true := hb _ (List.mem_of_getElem? (resolveIn_spec h).1)

theorem Bus.wf_readByte {b : Bus} (hb : b.wf) (a : Address) : (b.readByte a).bus.wf := by
  unfold readByte
  cases hr : b.resolve a with
  | none => exact hb
  | some c => exact wf_setDevice hb (Device.wf_read (wf_claim hb hr) _) _

theorem Bus.wf_storeByte {b : Bus} (hb : b.wf) (a : Address) (v : Byte) : (b.storeByte a v).wf := by
  unfold storeByte
  cases hr : b.resolve a with
  | none => exact hb
  | some c => exact wf_setDevice hb (Device.wf_store (wf_claim hb hr) _ _) _

theorem Bus.wf_storeTwoBytes {b : Bus} (hb : b.wf) (a : Address) (v : Word) : (b.storeTwoBytes a v).wf := by
  unfold storeTwoBytes
  cases hr : b.resolve a with
  | none => exact hb
  | some c => exact wf_setDevice hb (Device.wf_store (Device.wf_store (wf_claim hb hr) _ _) _ _) _

theorem Bus.wf_readTwoBytes {b : Bus} (hb : b.wf) (a : Address) : (b.readTwoBytes a).bus.wf := by
  unfold readTwoBytes
  cases hr : b.resolve a with
  | none => exact hb
  | some c => exact wf_setDevice hb (Device.wf_read (Device.wf_read (wf_claim hb hr) _) _) _

theorem Bus.wf_readAddressAt {b : Bus} (hb : b.wf) (a : Address) : (b.readAddressAt a).bus.wf := by
  unfold readAddressAt
  cases hr : b.resolve a with
  | none => exact hb
  | some c =>
    exact wf_setDevice hb (Device.wf_read (Device.wf_read (Device.wf_read (wf_claim hb hr) _) _) _) _

theorem Bus.wf_registerDevice {b : Bus} (hb : b.wf) {d : Device} (hd : d.wf = true) :
    (b.registerDevice d).wf := by
  intro e he
  rcases List.mem_append.mp he with he | he
  · exact hb e he
  · obtain rfl : e = d := by simpa using he
    exact hd

/-- The host reads the state it has given a device, RAM bytes in canonical form. -/
theorem Device.state_withState (d : Device) (st : DeviceState) :
    (d.withState st).state = match d, st with
      | .ram _ _ _, .cells bytes => .cells (Memory.ofCells bytes)
      | .external _ _, .other n  => .other n
      | d, _                     => d.state := by
  cases d <;> cases st <;> rfl

/-- What the host reads of every place after it has changed the device at one. -/
theorem Bus.deviceState_withDeviceState (b : Bus) (i j : Nat) (st : DeviceState) :
    (b.withDeviceState i st).deviceState j =
      if i = j then b.devices[j]?.map (fun d => (d.withState st).state) else b.deviceState j := by
  unfold deviceState withDeviceState
  rw [List.getElem?_modify]
  split <;> simp [Function.comp_def]

theorem Bus.wf_withDeviceState {b : Bus} (hb : b.wf) (i : Nat) (st : DeviceState) :
    (b.withDeviceState i st).wf := by
  intro e he
  obtain ⟨j, hj⟩ := List.mem_iff_getElem?.mp he
  simp only [withDeviceState, List.getElem?_modify] at hj
  obtain ⟨d, hd, rfl⟩ := Option.map_eq_some_iff.mp hj
  have hdw := hb d (List.mem_of_getElem? hd)
  split
  · cases d <;> cases st <;> first | exact hdw | rfl | skip
    exact decide_eq_true (Memory.wf_ofCells _)
  · exact hdw

end Sys2Proof.Machine
end

