-- ==== Sys2Proof/Laws/Cost.lean ====
section
/-! SUPPORT. The table's cost of an instruction is the machine's cost function on the table's entry. -/

namespace Sys2Proof.Machine

/-- The note lists that stand in the table. -/
def knownNotes : List (List Note) :=
  [[], [.n1], [.n1, .n2], [.n1, .n2, .n3], [.n1, .n3], [.n2], [.n2, .n8], [.n2, .n10], [.n3, .n10], [.n4],
   [.n5, .n6], [.n6], [.n8], [.n9], [.n10]]

theorem notesOf_known (op : Byte) : notesOf op ∈ knownNotes := by
  revert op; decide +kernel

theorem two_le_baseCycles (op : Byte) : 2 ≤ baseCycles op := by
  revert op; decide +kernel

theorem wm_eq_w16 (s : State) : (s.wm = .w16) = (s.accIs8 = false) := by
  unfold State.wm Width.ofNarrow; cases s.accIs8 <;> simp

theorem wx_eq_w16 (s : State) : (s.wx = .w16) = (s.indexIs8 = false) := by
  unfold State.wx Width.ofNarrow; cases s.indexIs8 <;> simp

/-- An instruction's cost by the table (R470) is `cycleCost` of its table entry. -/
theorem cost_eq_cycleCost (i : Instr) (s : State) :
    i.cost s = cycleCost { base := baseCycles i.opcode, notes := notesOf i.opcode } s (i.crossed s) (i.taken s) := by
  unfold Instr.cost hasNote cycleCost
  have h := notesOf_known i.opcode
  generalize notesOf i.opcode = ns at h ⊢
  generalize i.crossed s = cr
  generalize i.taken s = tk
  simp only [knownNotes, List.mem_cons, List.not_mem_nil, or_false] at h
  rcases h with rfl | rfl | rfl | rfl | rfl | rfl | rfl | rfl | rfl | rfl | rfl | rfl | rfl | rfl | rfl <;>
    simp [Note.adds, wm_eq_w16, wx_eq_w16] <;> cases s.e <;> simp [Nat.add_assoc]

theorem two_le_cycleCost (k : Cost) (h : 2 ≤ k.base) (s : State) (crossed taken : Bool) :
    2 ≤ cycleCost k s crossed taken := by unfold cycleCost; omega

end Sys2Proof.Machine
end

