-- ==== Sys2Proof/Laws/Flags.lean ====
section
/-! SUPPORT. Reading a bit of P after writing one, and widths as arithmetic on numbers. -/

namespace Sys2Proof.Machine

/-! ### Bits of P -/

theorem Flag.bit_lt (f : Flag) : f.bit < 8 := by cases f <;> decide

theorem Flag.bit_inj {f g : Flag} : f.bit = g.bit ↔ f = g := by
  cases f <;> cases g <;> simp [Flag.bit]

/-- What `putFlag` leaves in each bit. -/
theorem getFlag_putFlag (f g : Flag) (b : Bool) (p : Byte) :
    getFlag (putFlag f b p) g = if g = f then b else getFlag p g := by
  have hf := f.bit_lt
  have hg := g.bit_lt
  have hone : (1#8 <<< f.bit).getLsbD g.bit = decide (g = f) := by
    cases f <;> cases g <;> decide
  unfold getFlag putFlag
  cases b <;> simp only [Bool.false_eq_true, if_false, if_true, BitVec.getLsbD_and, BitVec.getLsbD_or,
    BitVec.getLsbD_not, hone, hg, decide_true, Bool.true_and] <;> by_cases h : g = f <;> simp [h]

@[simp] theorem getFlag_putFlag_self (f : Flag) (b : Bool) (p : Byte) : getFlag (putFlag f b p) f = b := by
  simp [getFlag_putFlag]

theorem getFlag_putFlag_ne {f g : Flag} (h : g ≠ f) (b : Bool) (p : Byte) :
    getFlag (putFlag f b p) g = getFlag p g := by simp [getFlag_putFlag, h]

theorem getFlag_putNZ (w : Width) (v : Word) (p : Byte) (g : Flag) :
    getFlag (putNZ w v p) g = match g with
      | .n => w.msb v
      | .z => w.trunc v == 0
      | g  => getFlag p g := by
  cases g <;> simp [putNZ, getFlag_putFlag]

/-- P is its eight bits. -/
theorem p_ext {p q : Byte} (h : ∀ f, getFlag p f = getFlag q f) : p = q := by
  apply BitVec.eq_of_getLsbD_eq
  intro i hi
  have h7 := h .n; have h6 := h .v; have h5 := h .m; have h4 := h .x
  have h3 := h .d; have h2 := h .i; have h1 := h .z; have h0 := h .c
  simp only [getFlag, Flag.bit] at h7 h6 h5 h4 h3 h2 h1 h0
  have : i = 0 ∨ i = 1 ∨ i = 2 ∨ i = 3 ∨ i = 4 ∨ i = 5 ∨ i = 6 ∨ i = 7 := by omega
  rcases this with h | h | h | h | h | h | h | h <;> subst h <;> assumption

theorem getFlag_or_widths (p : Byte) (f : Flag) :
    getFlag (p ||| 0x30#8) f = (getFlag p f || (f == .m || f == .x)) := by
  unfold getFlag
  rw [BitVec.getLsbD_or]
  congr 1
  cases f <;> decide

theorem getFlag_writtenP (e : Bool) (v : Byte) (f : Flag) :
    getFlag (writtenP e v) f = (getFlag v f || (e && (f == .m || f == .x))) := by
  cases e <;> simp [writtenP, getFlag_or_widths]

/-! ### Widths -/

theorem Width.trunc_toNat (w : Width) (v : Word) : (w.trunc v).toNat = v.toNat % 2 ^ w.bits := by
  have := v.isLt
  cases w
  · simp only [trunc, mask, bits, BitVec.toNat_and]
    exact Nat.and_two_pow_sub_one_eq_mod v.toNat 8
  · simp only [trunc, mask, bits, BitVec.toNat_and]
    exact Nat.and_two_pow_sub_one_eq_mod v.toNat 16

@[simp] theorem Width.trunc_w16 (v : Word) : Width.w16.trunc v = v := by
  apply BitVec.eq_of_toNat_eq
  rw [Width.trunc_toNat]
  exact Nat.mod_eq_of_lt v.isLt

@[simp] theorem Width.trunc_trunc (w : Width) (v : Word) : w.trunc (w.trunc v) = w.trunc v := by
  apply BitVec.eq_of_toNat_eq
  simp [Width.trunc_toNat]

theorem Width.trunc_of_lt {w : Width} {v : Word} (h : v.toNat < 2 ^ w.bits) : w.trunc v = v := by
  apply BitVec.eq_of_toNat_eq
  rw [Width.trunc_toNat, Nat.mod_eq_of_lt h]

@[simp] theorem highByte_trunc_w8 (v : Word) : highByte (Width.w8.trunc v) = 0 := by
  apply BitVec.eq_of_toNat_eq
  rw [highByte_toNat, Width.trunc_toNat]
  exact Nat.div_eq_of_lt (Nat.mod_lt _ (by decide))

@[simp] theorem lowByte_trunc (w : Width) (v : Word) : lowByte (w.trunc v) = lowByte v := by
  apply BitVec.eq_of_toNat_eq
  rw [lowByte_toNat, lowByte_toNat, Width.trunc_toNat]
  cases w <;> simp only [Width.bits] <;> omega

theorem Width.msb_eq (w : Width) (v : Word) : w.msb v = v.toNat.testBit (w.bits - 1) := by
  cases w <;> simp [msb, bits, BitVec.getLsbD]

@[simp] theorem Width.msb_trunc (w : Width) (v : Word) : w.msb (w.trunc v) = w.msb v := by
  rw [msb_eq, msb_eq, trunc_toNat]
  cases w
  · exact (Nat.testBit_mod_two_pow _ 8 7).trans (by simp [bits])
  · exact (Nat.testBit_mod_two_pow _ 16 15).trans (by simp [bits])

/-- The ones' complement at a width. -/
theorem xor_mask_toNat {w : Width} {b : Word} (hb : b.toNat < 2 ^ w.bits) :
    (b ^^^ w.mask).toNat = 2 ^ w.bits - 1 - b.toNat := by
  cases w
  · simp only [Width.bits] at hb ⊢
    have : b ^^^ Width.w8.mask = 255#16 - b := by
      obtain ⟨c, rfl⟩ : ∃ c : BitVec 8, b = c.setWidth 16 := ⟨b.setWidth 8, by bv_omega⟩
      revert c; decide
    rw [this]; bv_omega
  · rw [show Width.w16.mask = BitVec.allOnes 16 from rfl, BitVec.xor_allOnes]
    simp [Width.bits]

theorem carryAt_toNat (p : Byte) {k : Nat} (hk : k < 16) :
    (carryAt p k).toNat = (if getFlag p .c then 1 else 0) * 2 ^ k := by
  unfold carryAt
  split
  · simp only [BitVec.toNat_shiftLeft, BitVec.toNat_ofNat, Nat.shiftLeft_eq]
    exact Nat.mod_eq_of_lt (by simpa using Nat.pow_lt_pow_right (by decide) hk)
  · simp

@[simp] theorem Width.bits_ofNarrow (b : Bool) : (Width.ofNarrow b).bits = if b then 8 else 16 := by
  cases b <;> rfl

end Sys2Proof.Machine
end

