-- ==== Sys2Proof/Laws/State.lean ====
section
/-! SUPPORT. Each field of the state after each named update, true by definition (or by cases on a width). -/

namespace Sys2Proof.Machine.State

variable (s : State)

/-! ### setFlag -/

@[simp] theorem setFlag_c (f : Flag) (b : Bool) : (s.setFlag f b).c = s.c := rfl
@[simp] theorem setFlag_x (f : Flag) (b : Bool) : (s.setFlag f b).x = s.x := rfl
@[simp] theorem setFlag_y (f : Flag) (b : Bool) : (s.setFlag f b).y = s.y := rfl
@[simp] theorem setFlag_d (f : Flag) (b : Bool) : (s.setFlag f b).d = s.d := rfl
@[simp] theorem setFlag_sp (f : Flag) (b : Bool) : (s.setFlag f b).sp = s.sp := rfl
@[simp] theorem setFlag_dbr (f : Flag) (b : Bool) : (s.setFlag f b).dbr = s.dbr := rfl
@[simp] theorem setFlag_pbr (f : Flag) (b : Bool) : (s.setFlag f b).pbr = s.pbr := rfl
@[simp] theorem setFlag_pc (f : Flag) (b : Bool) : (s.setFlag f b).pc = s.pc := rfl
@[simp] theorem setFlag_p (f : Flag) (b : Bool) : (s.setFlag f b).p = putFlag f b s.p := rfl
@[simp] theorem setFlag_e (f : Flag) (b : Bool) : (s.setFlag f b).e = s.e := rfl
@[simp] theorem setFlag_cycles (f : Flag) (b : Bool) : (s.setFlag f b).cycles = s.cycles := rfl
@[simp] theorem setFlag_res (f : Flag) (b : Bool) : (s.setFlag f b).res = s.res := rfl
@[simp] theorem setFlag_rdy (f : Flag) (b : Bool) : (s.setFlag f b).rdy = s.rdy := rfl
@[simp] theorem setFlag_run (f : Flag) (b : Bool) : (s.setFlag f b).run = s.run := rfl
@[simp] theorem setFlag_bus (f : Flag) (b : Bool) : (s.setFlag f b).bus = s.bus := rfl
@[simp] theorem setFlag_cfg (f : Flag) (b : Bool) : (s.setFlag f b).cfg = s.cfg := rfl

/-! ### setNZ -/

@[simp] theorem setNZ_c (w : Width) (v : Word) : (s.setNZ w v).c = s.c := rfl
@[simp] theorem setNZ_x (w : Width) (v : Word) : (s.setNZ w v).x = s.x := rfl
@[simp] theorem setNZ_y (w : Width) (v : Word) : (s.setNZ w v).y = s.y := rfl
@[simp] theorem setNZ_d (w : Width) (v : Word) : (s.setNZ w v).d = s.d := rfl
@[simp] theorem setNZ_sp (w : Width) (v : Word) : (s.setNZ w v).sp = s.sp := rfl
@[simp] theorem setNZ_dbr (w : Width) (v : Word) : (s.setNZ w v).dbr = s.dbr := rfl
@[simp] theorem setNZ_pbr (w : Width) (v : Word) : (s.setNZ w v).pbr = s.pbr := rfl
@[simp] theorem setNZ_pc (w : Width) (v : Word) : (s.setNZ w v).pc = s.pc := rfl
@[simp] theorem setNZ_p (w : Width) (v : Word) : (s.setNZ w v).p = putNZ w v s.p := rfl
@[simp] theorem setNZ_e (w : Width) (v : Word) : (s.setNZ w v).e = s.e := rfl
@[simp] theorem setNZ_cycles (w : Width) (v : Word) : (s.setNZ w v).cycles = s.cycles := rfl
@[simp] theorem setNZ_res (w : Width) (v : Word) : (s.setNZ w v).res = s.res := rfl
@[simp] theorem setNZ_rdy (w : Width) (v : Word) : (s.setNZ w v).rdy = s.rdy := rfl
@[simp] theorem setNZ_run (w : Width) (v : Word) : (s.setNZ w v).run = s.run := rfl
@[simp] theorem setNZ_bus (w : Width) (v : Word) : (s.setNZ w v).bus = s.bus := rfl
@[simp] theorem setNZ_cfg (w : Width) (v : Word) : (s.setNZ w v).cfg = s.cfg := rfl

/-! ### setAcc -/

@[simp] theorem setAcc_c (w : Width) (v : Word) : (s.setAcc w v).c = s.accWith w v := rfl
@[simp] theorem setAcc_x (w : Width) (v : Word) : (s.setAcc w v).x = s.x := rfl
@[simp] theorem setAcc_y (w : Width) (v : Word) : (s.setAcc w v).y = s.y := rfl
@[simp] theorem setAcc_d (w : Width) (v : Word) : (s.setAcc w v).d = s.d := rfl
@[simp] theorem setAcc_sp (w : Width) (v : Word) : (s.setAcc w v).sp = s.sp := rfl
@[simp] theorem setAcc_dbr (w : Width) (v : Word) : (s.setAcc w v).dbr = s.dbr := rfl
@[simp] theorem setAcc_pbr (w : Width) (v : Word) : (s.setAcc w v).pbr = s.pbr := rfl
@[simp] theorem setAcc_pc (w : Width) (v : Word) : (s.setAcc w v).pc = s.pc := rfl
@[simp] theorem setAcc_p (w : Width) (v : Word) : (s.setAcc w v).p = s.p := rfl
@[simp] theorem setAcc_e (w : Width) (v : Word) : (s.setAcc w v).e = s.e := rfl
@[simp] theorem setAcc_cycles (w : Width) (v : Word) : (s.setAcc w v).cycles = s.cycles := rfl
@[simp] theorem setAcc_res (w : Width) (v : Word) : (s.setAcc w v).res = s.res := rfl
@[simp] theorem setAcc_rdy (w : Width) (v : Word) : (s.setAcc w v).rdy = s.rdy := rfl
@[simp] theorem setAcc_run (w : Width) (v : Word) : (s.setAcc w v).run = s.run := rfl
@[simp] theorem setAcc_bus (w : Width) (v : Word) : (s.setAcc w v).bus = s.bus := rfl
@[simp] theorem setAcc_cfg (w : Width) (v : Word) : (s.setAcc w v).cfg = s.cfg := rfl

/-! ### setX -/

@[simp] theorem setX_c (w : Width) (v : Word) : (s.setX w v).c = s.c := rfl
@[simp] theorem setX_x (w : Width) (v : Word) : (s.setX w v).x = w.trunc v := rfl
@[simp] theorem setX_y (w : Width) (v : Word) : (s.setX w v).y = s.y := rfl
@[simp] theorem setX_d (w : Width) (v : Word) : (s.setX w v).d = s.d := rfl
@[simp] theorem setX_sp (w : Width) (v : Word) : (s.setX w v).sp = s.sp := rfl
@[simp] theorem setX_dbr (w : Width) (v : Word) : (s.setX w v).dbr = s.dbr := rfl
@[simp] theorem setX_pbr (w : Width) (v : Word) : (s.setX w v).pbr = s.pbr := rfl
@[simp] theorem setX_pc (w : Width) (v : Word) : (s.setX w v).pc = s.pc := rfl
@[simp] theorem setX_p (w : Width) (v : Word) : (s.setX w v).p = s.p := rfl
@[simp] theorem setX_e (w : Width) (v : Word) : (s.setX w v).e = s.e := rfl
@[simp] theorem setX_cycles (w : Width) (v : Word) : (s.setX w v).cycles = s.cycles := rfl
@[simp] theorem setX_res (w : Width) (v : Word) : (s.setX w v).res = s.res := rfl
@[simp] theorem setX_rdy (w : Width) (v : Word) : (s.setX w v).rdy = s.rdy := rfl
@[simp] theorem setX_run (w : Width) (v : Word) : (s.setX w v).run = s.run := rfl
@[simp] theorem setX_bus (w : Width) (v : Word) : (s.setX w v).bus = s.bus := rfl
@[simp] theorem setX_cfg (w : Width) (v : Word) : (s.setX w v).cfg = s.cfg := rfl

/-! ### setY -/

@[simp] theorem setY_c (w : Width) (v : Word) : (s.setY w v).c = s.c := rfl
@[simp] theorem setY_x (w : Width) (v : Word) : (s.setY w v).x = s.x := rfl
@[simp] theorem setY_y (w : Width) (v : Word) : (s.setY w v).y = w.trunc v := rfl
@[simp] theorem setY_d (w : Width) (v : Word) : (s.setY w v).d = s.d := rfl
@[simp] theorem setY_sp (w : Width) (v : Word) : (s.setY w v).sp = s.sp := rfl
@[simp] theorem setY_dbr (w : Width) (v : Word) : (s.setY w v).dbr = s.dbr := rfl
@[simp] theorem setY_pbr (w : Width) (v : Word) : (s.setY w v).pbr = s.pbr := rfl
@[simp] theorem setY_pc (w : Width) (v : Word) : (s.setY w v).pc = s.pc := rfl
@[simp] theorem setY_p (w : Width) (v : Word) : (s.setY w v).p = s.p := rfl
@[simp] theorem setY_e (w : Width) (v : Word) : (s.setY w v).e = s.e := rfl
@[simp] theorem setY_cycles (w : Width) (v : Word) : (s.setY w v).cycles = s.cycles := rfl
@[simp] theorem setY_res (w : Width) (v : Word) : (s.setY w v).res = s.res := rfl
@[simp] theorem setY_rdy (w : Width) (v : Word) : (s.setY w v).rdy = s.rdy := rfl
@[simp] theorem setY_run (w : Width) (v : Word) : (s.setY w v).run = s.run := rfl
@[simp] theorem setY_bus (w : Width) (v : Word) : (s.setY w v).bus = s.bus := rfl
@[simp] theorem setY_cfg (w : Width) (v : Word) : (s.setY w v).cfg = s.cfg := rfl

/-! ### writeP -/

@[simp] theorem writeP_c (v : Byte) : (s.writeP v).c = s.c := rfl
@[simp] theorem writeP_x (v : Byte) : (s.writeP v).x = (if getFlag (writtenP s.e v) .x then Width.w8 else Width.w16).trunc s.x := rfl
@[simp] theorem writeP_y (v : Byte) : (s.writeP v).y = (if getFlag (writtenP s.e v) .x then Width.w8 else Width.w16).trunc s.y := rfl
@[simp] theorem writeP_d (v : Byte) : (s.writeP v).d = s.d := rfl
@[simp] theorem writeP_sp (v : Byte) : (s.writeP v).sp = s.sp := rfl
@[simp] theorem writeP_dbr (v : Byte) : (s.writeP v).dbr = s.dbr := rfl
@[simp] theorem writeP_pbr (v : Byte) : (s.writeP v).pbr = s.pbr := rfl
@[simp] theorem writeP_pc (v : Byte) : (s.writeP v).pc = s.pc := rfl
@[simp] theorem writeP_p (v : Byte) : (s.writeP v).p = writtenP s.e v := rfl
@[simp] theorem writeP_e (v : Byte) : (s.writeP v).e = s.e := rfl
@[simp] theorem writeP_cycles (v : Byte) : (s.writeP v).cycles = s.cycles := rfl
@[simp] theorem writeP_res (v : Byte) : (s.writeP v).res = s.res := rfl
@[simp] theorem writeP_rdy (v : Byte) : (s.writeP v).rdy = s.rdy := rfl
@[simp] theorem writeP_run (v : Byte) : (s.writeP v).run = s.run := rfl
@[simp] theorem writeP_bus (v : Byte) : (s.writeP v).bus = s.bus := rfl
@[simp] theorem writeP_cfg (v : Byte) : (s.writeP v).cfg = s.cfg := rfl

/-! ### setProgramAddress -/

@[simp] theorem setProgramAddress_c (bank : Byte) (offset : Word) : (s.setProgramAddress bank offset).c = s.c := rfl
@[simp] theorem setProgramAddress_x (bank : Byte) (offset : Word) : (s.setProgramAddress bank offset).x = s.x := rfl
@[simp] theorem setProgramAddress_y (bank : Byte) (offset : Word) : (s.setProgramAddress bank offset).y = s.y := rfl
@[simp] theorem setProgramAddress_d (bank : Byte) (offset : Word) : (s.setProgramAddress bank offset).d = s.d := rfl
@[simp] theorem setProgramAddress_sp (bank : Byte) (offset : Word) : (s.setProgramAddress bank offset).sp = s.sp := rfl
@[simp] theorem setProgramAddress_dbr (bank : Byte) (offset : Word) : (s.setProgramAddress bank offset).dbr = s.dbr := rfl
@[simp] theorem setProgramAddress_pbr (bank : Byte) (offset : Word) : (s.setProgramAddress bank offset).pbr = bank := rfl
@[simp] theorem setProgramAddress_pc (bank : Byte) (offset : Word) : (s.setProgramAddress bank offset).pc = offset := rfl
@[simp] theorem setProgramAddress_p (bank : Byte) (offset : Word) : (s.setProgramAddress bank offset).p = s.p := rfl
@[simp] theorem setProgramAddress_e (bank : Byte) (offset : Word) : (s.setProgramAddress bank offset).e = s.e := rfl
@[simp] theorem setProgramAddress_cycles (bank : Byte) (offset : Word) : (s.setProgramAddress bank offset).cycles = s.cycles := rfl
@[simp] theorem setProgramAddress_res (bank : Byte) (offset : Word) : (s.setProgramAddress bank offset).res = s.res := rfl
@[simp] theorem setProgramAddress_rdy (bank : Byte) (offset : Word) : (s.setProgramAddress bank offset).rdy = s.rdy := rfl
@[simp] theorem setProgramAddress_run (bank : Byte) (offset : Word) : (s.setProgramAddress bank offset).run = s.run := rfl
@[simp] theorem setProgramAddress_bus (bank : Byte) (offset : Word) : (s.setProgramAddress bank offset).bus = s.bus := rfl
@[simp] theorem setProgramAddress_cfg (bank : Byte) (offset : Word) : (s.setProgramAddress bank offset).cfg = s.cfg := rfl

/-! ### addToProgramAddress -/

@[simp] theorem addToProgramAddress_c (n : Nat) : (s.addToProgramAddress n).c = s.c := rfl
@[simp] theorem addToProgramAddress_x (n : Nat) : (s.addToProgramAddress n).x = s.x := rfl
@[simp] theorem addToProgramAddress_y (n : Nat) : (s.addToProgramAddress n).y = s.y := rfl
@[simp] theorem addToProgramAddress_d (n : Nat) : (s.addToProgramAddress n).d = s.d := rfl
@[simp] theorem addToProgramAddress_sp (n : Nat) : (s.addToProgramAddress n).sp = s.sp := rfl
@[simp] theorem addToProgramAddress_dbr (n : Nat) : (s.addToProgramAddress n).dbr = s.dbr := rfl
@[simp] theorem addToProgramAddress_pbr (n : Nat) : (s.addToProgramAddress n).pbr = s.pbr := rfl
@[simp] theorem addToProgramAddress_pc (n : Nat) : (s.addToProgramAddress n).pc = s.pc + BitVec.ofNat 16 n := rfl
@[simp] theorem addToProgramAddress_p (n : Nat) : (s.addToProgramAddress n).p = s.p := rfl
@[simp] theorem addToProgramAddress_e (n : Nat) : (s.addToProgramAddress n).e = s.e := rfl
@[simp] theorem addToProgramAddress_cycles (n : Nat) : (s.addToProgramAddress n).cycles = s.cycles := rfl
@[simp] theorem addToProgramAddress_res (n : Nat) : (s.addToProgramAddress n).res = s.res := rfl
@[simp] theorem addToProgramAddress_rdy (n : Nat) : (s.addToProgramAddress n).rdy = s.rdy := rfl
@[simp] theorem addToProgramAddress_run (n : Nat) : (s.addToProgramAddress n).run = s.run := rfl
@[simp] theorem addToProgramAddress_bus (n : Nat) : (s.addToProgramAddress n).bus = s.bus := rfl
@[simp] theorem addToProgramAddress_cfg (n : Nat) : (s.addToProgramAddress n).cfg = s.cfg := rfl

/-! ### addToCycles -/

@[simp] theorem addToCycles_c (n : Nat) : (s.addToCycles n).c = s.c := rfl
@[simp] theorem addToCycles_x (n : Nat) : (s.addToCycles n).x = s.x := rfl
@[simp] theorem addToCycles_y (n : Nat) : (s.addToCycles n).y = s.y := rfl
@[simp] theorem addToCycles_d (n : Nat) : (s.addToCycles n).d = s.d := rfl
@[simp] theorem addToCycles_sp (n : Nat) : (s.addToCycles n).sp = s.sp := rfl
@[simp] theorem addToCycles_dbr (n : Nat) : (s.addToCycles n).dbr = s.dbr := rfl
@[simp] theorem addToCycles_pbr (n : Nat) : (s.addToCycles n).pbr = s.pbr := rfl
@[simp] theorem addToCycles_pc (n : Nat) : (s.addToCycles n).pc = s.pc := rfl
@[simp] theorem addToCycles_p (n : Nat) : (s.addToCycles n).p = s.p := rfl
@[simp] theorem addToCycles_e (n : Nat) : (s.addToCycles n).e = s.e := rfl
@[simp] theorem addToCycles_cycles (n : Nat) : (s.addToCycles n).cycles = s.cycles + n := rfl
@[simp] theorem addToCycles_res (n : Nat) : (s.addToCycles n).res = s.res := rfl
@[simp] theorem addToCycles_rdy (n : Nat) : (s.addToCycles n).rdy = s.rdy := rfl
@[simp] theorem addToCycles_run (n : Nat) : (s.addToCycles n).run = s.run := rfl
@[simp] theorem addToCycles_bus (n : Nat) : (s.addToCycles n).bus = s.bus := rfl
@[simp] theorem addToCycles_cfg (n : Nat) : (s.addToCycles n).cfg = s.cfg := rfl

/-! ### subtractFromCycles -/

@[simp] theorem subtractFromCycles_c (n : Nat) : (s.subtractFromCycles n).c = s.c := rfl
@[simp] theorem subtractFromCycles_x (n : Nat) : (s.subtractFromCycles n).x = s.x := rfl
@[simp] theorem subtractFromCycles_y (n : Nat) : (s.subtractFromCycles n).y = s.y := rfl
@[simp] theorem subtractFromCycles_d (n : Nat) : (s.subtractFromCycles n).d = s.d := rfl
@[simp] theorem subtractFromCycles_sp (n : Nat) : (s.subtractFromCycles n).sp = s.sp := rfl
@[simp] theorem subtractFromCycles_dbr (n : Nat) : (s.subtractFromCycles n).dbr = s.dbr := rfl
@[simp] theorem subtractFromCycles_pbr (n : Nat) : (s.subtractFromCycles n).pbr = s.pbr := rfl
@[simp] theorem subtractFromCycles_pc (n : Nat) : (s.subtractFromCycles n).pc = s.pc := rfl
@[simp] theorem subtractFromCycles_p (n : Nat) : (s.subtractFromCycles n).p = s.p := rfl
@[simp] theorem subtractFromCycles_e (n : Nat) : (s.subtractFromCycles n).e = s.e := rfl
@[simp] theorem subtractFromCycles_cycles (n : Nat) : (s.subtractFromCycles n).cycles = s.cycles - n := rfl
@[simp] theorem subtractFromCycles_res (n : Nat) : (s.subtractFromCycles n).res = s.res := rfl
@[simp] theorem subtractFromCycles_rdy (n : Nat) : (s.subtractFromCycles n).rdy = s.rdy := rfl
@[simp] theorem subtractFromCycles_run (n : Nat) : (s.subtractFromCycles n).run = s.run := rfl
@[simp] theorem subtractFromCycles_bus (n : Nat) : (s.subtractFromCycles n).bus = s.bus := rfl
@[simp] theorem subtractFromCycles_cfg (n : Nat) : (s.subtractFromCycles n).cfg = s.cfg := rfl

/-! ### finish -/

@[simp] theorem finish_c (len cyc : Nat) : (s.finish len cyc).c = s.c := rfl
@[simp] theorem finish_x (len cyc : Nat) : (s.finish len cyc).x = s.x := rfl
@[simp] theorem finish_y (len cyc : Nat) : (s.finish len cyc).y = s.y := rfl
@[simp] theorem finish_d (len cyc : Nat) : (s.finish len cyc).d = s.d := rfl
@[simp] theorem finish_sp (len cyc : Nat) : (s.finish len cyc).sp = s.sp := rfl
@[simp] theorem finish_dbr (len cyc : Nat) : (s.finish len cyc).dbr = s.dbr := rfl
@[simp] theorem finish_pbr (len cyc : Nat) : (s.finish len cyc).pbr = s.pbr := rfl
@[simp] theorem finish_pc (len cyc : Nat) : (s.finish len cyc).pc = s.pc + BitVec.ofNat 16 len := rfl
@[simp] theorem finish_p (len cyc : Nat) : (s.finish len cyc).p = s.p := rfl
@[simp] theorem finish_e (len cyc : Nat) : (s.finish len cyc).e = s.e := rfl
@[simp] theorem finish_cycles (len cyc : Nat) : (s.finish len cyc).cycles = s.cycles + cyc := rfl
@[simp] theorem finish_res (len cyc : Nat) : (s.finish len cyc).res = s.res := rfl
@[simp] theorem finish_rdy (len cyc : Nat) : (s.finish len cyc).rdy = s.rdy := rfl
@[simp] theorem finish_run (len cyc : Nat) : (s.finish len cyc).run = s.run := rfl
@[simp] theorem finish_bus (len cyc : Nat) : (s.finish len cyc).bus = s.bus := rfl
@[simp] theorem finish_cfg (len cyc : Nat) : (s.finish len cyc).cfg = s.cfg := rfl

/-! ### withBus -/

@[simp] theorem withBus_c (b : Bus) : (s.withBus b).c = s.c := rfl
@[simp] theorem withBus_x (b : Bus) : (s.withBus b).x = s.x := rfl
@[simp] theorem withBus_y (b : Bus) : (s.withBus b).y = s.y := rfl
@[simp] theorem withBus_d (b : Bus) : (s.withBus b).d = s.d := rfl
@[simp] theorem withBus_sp (b : Bus) : (s.withBus b).sp = s.sp := rfl
@[simp] theorem withBus_dbr (b : Bus) : (s.withBus b).dbr = s.dbr := rfl
@[simp] theorem withBus_pbr (b : Bus) : (s.withBus b).pbr = s.pbr := rfl
@[simp] theorem withBus_pc (b : Bus) : (s.withBus b).pc = s.pc := rfl
@[simp] theorem withBus_p (b : Bus) : (s.withBus b).p = s.p := rfl
@[simp] theorem withBus_e (b : Bus) : (s.withBus b).e = s.e := rfl
@[simp] theorem withBus_cycles (b : Bus) : (s.withBus b).cycles = s.cycles := rfl
@[simp] theorem withBus_res (b : Bus) : (s.withBus b).res = s.res := rfl
@[simp] theorem withBus_rdy (b : Bus) : (s.withBus b).rdy = s.rdy := rfl
@[simp] theorem withBus_run (b : Bus) : (s.withBus b).run = s.run := rfl
@[simp] theorem withBus_bus (b : Bus) : (s.withBus b).bus = b := rfl
@[simp] theorem withBus_cfg (b : Bus) : (s.withBus b).cfg = s.cfg := rfl

/-! ### write8 -/

@[simp] theorem write8_c (a : Address) (v : Byte) : (s.write8 a v).c = s.c := rfl
@[simp] theorem write8_x (a : Address) (v : Byte) : (s.write8 a v).x = s.x := rfl
@[simp] theorem write8_y (a : Address) (v : Byte) : (s.write8 a v).y = s.y := rfl
@[simp] theorem write8_d (a : Address) (v : Byte) : (s.write8 a v).d = s.d := rfl
@[simp] theorem write8_sp (a : Address) (v : Byte) : (s.write8 a v).sp = s.sp := rfl
@[simp] theorem write8_dbr (a : Address) (v : Byte) : (s.write8 a v).dbr = s.dbr := rfl
@[simp] theorem write8_pbr (a : Address) (v : Byte) : (s.write8 a v).pbr = s.pbr := rfl
@[simp] theorem write8_pc (a : Address) (v : Byte) : (s.write8 a v).pc = s.pc := rfl
@[simp] theorem write8_p (a : Address) (v : Byte) : (s.write8 a v).p = s.p := rfl
@[simp] theorem write8_e (a : Address) (v : Byte) : (s.write8 a v).e = s.e := rfl
@[simp] theorem write8_cycles (a : Address) (v : Byte) : (s.write8 a v).cycles = s.cycles := rfl
@[simp] theorem write8_res (a : Address) (v : Byte) : (s.write8 a v).res = s.res := rfl
@[simp] theorem write8_rdy (a : Address) (v : Byte) : (s.write8 a v).rdy = s.rdy := rfl
@[simp] theorem write8_run (a : Address) (v : Byte) : (s.write8 a v).run = s.run := rfl
@[simp] theorem write8_bus (a : Address) (v : Byte) : (s.write8 a v).bus = s.bus.storeByte a v := rfl
@[simp] theorem write8_cfg (a : Address) (v : Byte) : (s.write8 a v).cfg = s.cfg := rfl

/-! ### push8 -/

@[simp] theorem push8_c (v : Byte) : (s.push8 v).c = s.c := rfl
@[simp] theorem push8_x (v : Byte) : (s.push8 v).x = s.x := rfl
@[simp] theorem push8_y (v : Byte) : (s.push8 v).y = s.y := rfl
@[simp] theorem push8_d (v : Byte) : (s.push8 v).d = s.d := rfl
@[simp] theorem push8_sp (v : Byte) : (s.push8 v).sp = stackDown s.e s.sp := rfl
@[simp] theorem push8_dbr (v : Byte) : (s.push8 v).dbr = s.dbr := rfl
@[simp] theorem push8_pbr (v : Byte) : (s.push8 v).pbr = s.pbr := rfl
@[simp] theorem push8_pc (v : Byte) : (s.push8 v).pc = s.pc := rfl
@[simp] theorem push8_p (v : Byte) : (s.push8 v).p = s.p := rfl
@[simp] theorem push8_e (v : Byte) : (s.push8 v).e = s.e := rfl
@[simp] theorem push8_cycles (v : Byte) : (s.push8 v).cycles = s.cycles := rfl
@[simp] theorem push8_res (v : Byte) : (s.push8 v).res = s.res := rfl
@[simp] theorem push8_rdy (v : Byte) : (s.push8 v).rdy = s.rdy := rfl
@[simp] theorem push8_run (v : Byte) : (s.push8 v).run = s.run := rfl
@[simp] theorem push8_bus (v : Byte) : (s.push8 v).bus = s.bus.storeByte (stackAddress s.sp) v := rfl
@[simp] theorem push8_cfg (v : Byte) : (s.push8 v).cfg = s.cfg := rfl

/-! ### push16 -/

@[simp] theorem push16_c (v : Word) : (s.push16 v).c = s.c := rfl
@[simp] theorem push16_x (v : Word) : (s.push16 v).x = s.x := rfl
@[simp] theorem push16_y (v : Word) : (s.push16 v).y = s.y := rfl
@[simp] theorem push16_d (v : Word) : (s.push16 v).d = s.d := rfl
@[simp] theorem push16_sp (v : Word) : (s.push16 v).sp = stackDown s.e (stackDown s.e s.sp) := rfl
@[simp] theorem push16_dbr (v : Word) : (s.push16 v).dbr = s.dbr := rfl
@[simp] theorem push16_pbr (v : Word) : (s.push16 v).pbr = s.pbr := rfl
@[simp] theorem push16_pc (v : Word) : (s.push16 v).pc = s.pc := rfl
@[simp] theorem push16_p (v : Word) : (s.push16 v).p = s.p := rfl
@[simp] theorem push16_e (v : Word) : (s.push16 v).e = s.e := rfl
@[simp] theorem push16_cycles (v : Word) : (s.push16 v).cycles = s.cycles := rfl
@[simp] theorem push16_res (v : Word) : (s.push16 v).res = s.res := rfl
@[simp] theorem push16_rdy (v : Word) : (s.push16 v).rdy = s.rdy := rfl
@[simp] theorem push16_run (v : Word) : (s.push16 v).run = s.run := rfl
@[simp] theorem push16_bus (v : Word) : (s.push16 v).bus = (s.bus.storeByte (stackAddress s.sp) (highByte v)).storeByte (stackAddress (stackDown s.e s.sp))
      (lowByte v) := rfl
@[simp] theorem push16_cfg (v : Word) : (s.push16 v).cfg = s.cfg := rfl

/-! ### pull8.st -/

@[simp] theorem pull8_st_c : s.pull8.st.c = s.c := rfl
@[simp] theorem pull8_st_x : s.pull8.st.x = s.x := rfl
@[simp] theorem pull8_st_y : s.pull8.st.y = s.y := rfl
@[simp] theorem pull8_st_d : s.pull8.st.d = s.d := rfl
@[simp] theorem pull8_st_sp : s.pull8.st.sp = stackUp s.e s.sp := rfl
@[simp] theorem pull8_st_dbr : s.pull8.st.dbr = s.dbr := rfl
@[simp] theorem pull8_st_pbr : s.pull8.st.pbr = s.pbr := rfl
@[simp] theorem pull8_st_pc : s.pull8.st.pc = s.pc := rfl
@[simp] theorem pull8_st_p : s.pull8.st.p = s.p := rfl
@[simp] theorem pull8_st_e : s.pull8.st.e = s.e := rfl
@[simp] theorem pull8_st_cycles : s.pull8.st.cycles = s.cycles := rfl
@[simp] theorem pull8_st_res : s.pull8.st.res = s.res := rfl
@[simp] theorem pull8_st_rdy : s.pull8.st.rdy = s.rdy := rfl
@[simp] theorem pull8_st_run : s.pull8.st.run = s.run := rfl
@[simp] theorem pull8_st_bus : s.pull8.st.bus = (s.bus.readByte (stackAddress (stackUp s.e s.sp))).bus := rfl
@[simp] theorem pull8_st_cfg : s.pull8.st.cfg = s.cfg := rfl

/-! ### pull16.st -/

@[simp] theorem pull16_st_c : s.pull16.st.c = s.c := rfl
@[simp] theorem pull16_st_x : s.pull16.st.x = s.x := rfl
@[simp] theorem pull16_st_y : s.pull16.st.y = s.y := rfl
@[simp] theorem pull16_st_d : s.pull16.st.d = s.d := rfl
@[simp] theorem pull16_st_sp : s.pull16.st.sp = stackUp s.e (stackUp s.e s.sp) := rfl
@[simp] theorem pull16_st_dbr : s.pull16.st.dbr = s.dbr := rfl
@[simp] theorem pull16_st_pbr : s.pull16.st.pbr = s.pbr := rfl
@[simp] theorem pull16_st_pc : s.pull16.st.pc = s.pc := rfl
@[simp] theorem pull16_st_p : s.pull16.st.p = s.p := rfl
@[simp] theorem pull16_st_e : s.pull16.st.e = s.e := rfl
@[simp] theorem pull16_st_cycles : s.pull16.st.cycles = s.cycles := rfl
@[simp] theorem pull16_st_res : s.pull16.st.res = s.res := rfl
@[simp] theorem pull16_st_rdy : s.pull16.st.rdy = s.rdy := rfl
@[simp] theorem pull16_st_run : s.pull16.st.run = s.run := rfl
@[simp] theorem pull16_st_bus : s.pull16.st.bus = s.pull8.st.pull8.st.bus := rfl
@[simp] theorem pull16_st_cfg : s.pull16.st.cfg = s.cfg := rfl

/-! ### pushW -/

@[simp] theorem pushW_c (w : Width) (v : Word) : (s.pushW w v).c = s.c := by cases w <;> rfl
@[simp] theorem pushW_x (w : Width) (v : Word) : (s.pushW w v).x = s.x := by cases w <;> rfl
@[simp] theorem pushW_y (w : Width) (v : Word) : (s.pushW w v).y = s.y := by cases w <;> rfl
@[simp] theorem pushW_d (w : Width) (v : Word) : (s.pushW w v).d = s.d := by cases w <;> rfl
@[simp] theorem pushW_dbr (w : Width) (v : Word) : (s.pushW w v).dbr = s.dbr := by cases w <;> rfl
@[simp] theorem pushW_pbr (w : Width) (v : Word) : (s.pushW w v).pbr = s.pbr := by cases w <;> rfl
@[simp] theorem pushW_pc (w : Width) (v : Word) : (s.pushW w v).pc = s.pc := by cases w <;> rfl
@[simp] theorem pushW_p (w : Width) (v : Word) : (s.pushW w v).p = s.p := by cases w <;> rfl
@[simp] theorem pushW_e (w : Width) (v : Word) : (s.pushW w v).e = s.e := by cases w <;> rfl
@[simp] theorem pushW_cycles (w : Width) (v : Word) : (s.pushW w v).cycles = s.cycles := by cases w <;> rfl
@[simp] theorem pushW_res (w : Width) (v : Word) : (s.pushW w v).res = s.res := by cases w <;> rfl
@[simp] theorem pushW_rdy (w : Width) (v : Word) : (s.pushW w v).rdy = s.rdy := by cases w <;> rfl
@[simp] theorem pushW_run (w : Width) (v : Word) : (s.pushW w v).run = s.run := by cases w <;> rfl
@[simp] theorem pushW_cfg (w : Width) (v : Word) : (s.pushW w v).cfg = s.cfg := by cases w <;> rfl

/-! ### pullW.st -/

@[simp] theorem pullW_st_c (w : Width) : (s.pullW w).st.c = s.c := by cases w <;> rfl
@[simp] theorem pullW_st_x (w : Width) : (s.pullW w).st.x = s.x := by cases w <;> rfl
@[simp] theorem pullW_st_y (w : Width) : (s.pullW w).st.y = s.y := by cases w <;> rfl
@[simp] theorem pullW_st_d (w : Width) : (s.pullW w).st.d = s.d := by cases w <;> rfl
@[simp] theorem pullW_st_dbr (w : Width) : (s.pullW w).st.dbr = s.dbr := by cases w <;> rfl
@[simp] theorem pullW_st_pbr (w : Width) : (s.pullW w).st.pbr = s.pbr := by cases w <;> rfl
@[simp] theorem pullW_st_pc (w : Width) : (s.pullW w).st.pc = s.pc := by cases w <;> rfl
@[simp] theorem pullW_st_p (w : Width) : (s.pullW w).st.p = s.p := by cases w <;> rfl
@[simp] theorem pullW_st_e (w : Width) : (s.pullW w).st.e = s.e := by cases w <;> rfl
@[simp] theorem pullW_st_cycles (w : Width) : (s.pullW w).st.cycles = s.cycles := by cases w <;> rfl
@[simp] theorem pullW_st_res (w : Width) : (s.pullW w).st.res = s.res := by cases w <;> rfl
@[simp] theorem pullW_st_rdy (w : Width) : (s.pullW w).st.rdy = s.rdy := by cases w <;> rfl
@[simp] theorem pullW_st_run (w : Width) : (s.pullW w).st.run = s.run := by cases w <;> rfl
@[simp] theorem pullW_st_cfg (w : Width) : (s.pullW w).st.cfg = s.cfg := by cases w <;> rfl

/-! ### pushInterruptFrame -/

@[simp] theorem pushInterruptFrame_c : s.pushInterruptFrame.c = s.c := by unfold pushInterruptFrame; split <;> rfl
@[simp] theorem pushInterruptFrame_x : s.pushInterruptFrame.x = s.x := by unfold pushInterruptFrame; split <;> rfl
@[simp] theorem pushInterruptFrame_y : s.pushInterruptFrame.y = s.y := by unfold pushInterruptFrame; split <;> rfl
@[simp] theorem pushInterruptFrame_d : s.pushInterruptFrame.d = s.d := by unfold pushInterruptFrame; split <;> rfl
@[simp] theorem pushInterruptFrame_dbr : s.pushInterruptFrame.dbr = s.dbr := by unfold pushInterruptFrame; split <;> rfl
@[simp] theorem pushInterruptFrame_pbr : s.pushInterruptFrame.pbr = s.pbr := by unfold pushInterruptFrame; split <;> rfl
@[simp] theorem pushInterruptFrame_pc : s.pushInterruptFrame.pc = s.pc := by unfold pushInterruptFrame; split <;> rfl
@[simp] theorem pushInterruptFrame_p : s.pushInterruptFrame.p = s.p := by unfold pushInterruptFrame; split <;> rfl
@[simp] theorem pushInterruptFrame_e : s.pushInterruptFrame.e = s.e := by unfold pushInterruptFrame; split <;> rfl
@[simp] theorem pushInterruptFrame_cycles : s.pushInterruptFrame.cycles = s.cycles := by unfold pushInterruptFrame; split <;> rfl
@[simp] theorem pushInterruptFrame_res : s.pushInterruptFrame.res = s.res := by unfold pushInterruptFrame; split <;> rfl
@[simp] theorem pushInterruptFrame_rdy : s.pushInterruptFrame.rdy = s.rdy := by unfold pushInterruptFrame; split <;> rfl
@[simp] theorem pushInterruptFrame_run : s.pushInterruptFrame.run = s.run := by unfold pushInterruptFrame; split <;> rfl
@[simp] theorem pushInterruptFrame_cfg : s.pushInterruptFrame.cfg = s.cfg := by unfold pushInterruptFrame; split <;> rfl

/-! ### performReset -/

@[simp] theorem performReset_c : s.performReset.c = s.c := rfl
@[simp] theorem performReset_x : s.performReset.x = Width.w8.trunc s.x := rfl
@[simp] theorem performReset_y : s.performReset.y = Width.w8.trunc s.y := rfl
@[simp] theorem performReset_d : s.performReset.d = 0 := rfl
@[simp] theorem performReset_sp : s.performReset.sp = s.cfg.stackReset := rfl
@[simp] theorem performReset_dbr : s.performReset.dbr = s.dbr := rfl
@[simp] theorem performReset_pbr : s.performReset.pbr = 0x00 := rfl
@[simp] theorem performReset_pc : s.performReset.pc = s.cfg.vecE.reset := rfl
@[simp] theorem performReset_p : s.performReset.p = putFlag .x true (putFlag .m true s.p) := rfl
@[simp] theorem performReset_e : s.performReset.e = true := rfl
@[simp] theorem performReset_cycles : s.performReset.cycles = s.cycles := rfl
@[simp] theorem performReset_res : s.performReset.res = s.res := rfl
@[simp] theorem performReset_rdy : s.performReset.rdy = s.rdy := rfl
@[simp] theorem performReset_run : s.performReset.run = .running := rfl
@[simp] theorem performReset_bus : s.performReset.bus = s.bus := rfl
@[simp] theorem performReset_cfg : s.performReset.cfg = s.cfg := rfl

end Sys2Proof.Machine.State
end

