-- ==== Sys2Proof/Laws/Operands.lean ====
section
/-! SUPPORT. What operand reads and writes, and the stack primitives, do to memory: one lemma per shared
operation. Reads leave every byte as it was; a write or a push changes its own bytes only. -/

namespace Sys2Proof.Machine

/-! ### Reads -/

/-- What a read of the bus leaves behind: every byte as before, RAM where RAM was, and the canonical form. -/
structure Bus.OnlyRead (b b' : Bus) : Prop where
  peek  : ∀ a, b'.peek a = b.peek a
  holds : ∀ a, b.Holds a → b'.Holds a
  wf    : b.wf → b'.wf

theorem Bus.OnlyRead.refl (b : Bus) : b.OnlyRead b := ⟨fun _ => rfl, fun _ h => h, fun h => h⟩

theorem Bus.OnlyRead.trans {a b c : Bus} (h : a.OnlyRead b) (h' : b.OnlyRead c) : a.OnlyRead c :=
  ⟨fun x => (h'.peek x).trans (h.peek x), fun x hx => h'.holds x (h.holds x hx), fun hx => h'.wf (h.wf hx)⟩

theorem Bus.onlyRead_readByte (b : Bus) (a : Address) : b.OnlyRead (b.readByte a).bus :=
  ⟨fun x => peek_readByte b a x, fun _ h => h.readByte a, fun h => wf_readByte h a⟩

theorem Bus.onlyRead_read2 (b : Bus) (l : Loc) : b.OnlyRead (b.read2 l).bus :=
  (onlyRead_readByte b _).trans (onlyRead_readByte _ _)

theorem Bus.onlyRead_read3 (b : Bus) (l : Loc) : b.OnlyRead (b.read3 l).bus :=
  ((onlyRead_readByte b _).trans (onlyRead_readByte _ _)).trans (onlyRead_readByte _ _)

theorem Bus.onlyRead_readW (b : Bus) (w : Width) (l : Loc) : b.OnlyRead (b.readW w l).bus := by
  cases w
  · exact onlyRead_readByte b _
  · exact onlyRead_read2 b l

/-- A mode's pointer reads only read. -/
theorem State.onlyRead_effective (s : State) (m : MemMode) : s.bus.OnlyRead (s.effective m).bus := by
  cases m <;> first
    | exact .refl _
    | exact Bus.onlyRead_read2 _ _
    | exact Bus.onlyRead_read3 _ _

theorem State.onlyRead_load (s : State) (w : Width) (o : Operand) : s.bus.OnlyRead (s.load w o).bus := by
  cases o with
  | imm v => exact .refl _
  | mem m => exact (s.onlyRead_effective m).trans (Bus.onlyRead_readW _ _ _)

theorem State.onlyRead_pull8 (s : State) : s.bus.OnlyRead s.pull8.st.bus := Bus.onlyRead_readByte _ _

theorem State.onlyRead_pull16 (s : State) : s.bus.OnlyRead s.pull16.st.bus :=
  (s.onlyRead_pull8).trans s.pull8.st.onlyRead_pull8

theorem State.onlyRead_pullW (s : State) (w : Width) : s.bus.OnlyRead (s.pullW w).st.bus := by
  cases w
  · exact s.onlyRead_pull8
  · exact s.onlyRead_pull16

/-! ### Values read -/

theorem Bus.readW_lt (b : Bus) (w : Width) (l : Loc) : (b.readW w l).val.toNat < 2 ^ w.bits := by
  cases w
  · simp only [readW, zeroExtend8_toNat, Width.bits]; exact (b.read1 l).val.isLt
  · exact ((b.readW .w16 l).val).isLt

theorem State.load_lt (s : State) (w : Width) (o : Operand) : (s.load w o).value.toNat < 2 ^ w.bits := by
  cases o with
  | imm v => simp only [load, Width.trunc_toNat]; exact Nat.mod_lt _ (Nat.two_pow_pos _)
  | mem m => exact Bus.readW_lt _ _ _

@[simp] theorem State.trunc_load (s : State) (w : Width) (o : Operand) :
    w.trunc (s.load w o).value = (s.load w o).value := Width.trunc_of_lt (s.load_lt w o)

theorem State.acc_lt (s : State) (w : Width) : (s.acc w).toNat < 2 ^ w.bits := by
  simp only [acc, Width.trunc_toNat]; exact Nat.mod_lt _ (Nat.two_pow_pos _)

theorem State.xe_lt (s : State) : s.xe.toNat < 2 ^ s.wx.bits := by
  simp only [xe, Width.trunc_toNat]; exact Nat.mod_lt _ (Nat.two_pow_pos _)

theorem State.ye_lt (s : State) : s.ye.toNat < 2 ^ s.wx.bits := by
  simp only [ye, Width.trunc_toNat]; exact Nat.mod_lt _ (Nat.two_pow_pos _)

@[simp] theorem State.trunc_acc (s : State) (w : Width) : w.trunc (s.acc w) = s.acc w := Width.trunc_trunc w s.c
@[simp] theorem State.trunc_xe (s : State) : s.wx.trunc s.xe = s.xe := Width.trunc_trunc s.wx s.x
@[simp] theorem State.trunc_ye (s : State) : s.wx.trunc s.ye = s.ye := Width.trunc_trunc s.wx s.y

/-- `SetAcc` as the claims see it. -/
theorem setsAcc_accWith {w : Width} {v : Word} {s t : State} (h : t.c = s.accWith w v) : SetsAcc w v s t := by
  cases w
  · simp [SetsAcc, State.a, State.b, h, State.accWith]
  · simpa [SetsAcc, State.accWith] using h

/-! ### Writes -/

/-- What a store to the named addresses leaves behind. -/
structure Bus.OnlyStored (stored : List Address) (b b' : Bus) : Prop where
  peek  : ∀ a, a ∉ stored → b'.peek a = b.peek a
  holds : ∀ a, b.Holds a → b'.Holds a
  wf    : b.wf → b'.wf

theorem Bus.onlyStored_storeByte (b : Bus) (a : Address) (v : Byte) : b.OnlyStored [a] (b.storeByte a v) :=
  ⟨fun x hx => peek_storeByte_ne b (by simpa using hx) v, fun _ h => h.storeByte a v, fun h => wf_storeByte h a v⟩

theorem Bus.OnlyRead.stored {b b' : Bus} (h : b.OnlyRead b') : b.OnlyStored [] b' :=
  ⟨fun a _ => h.peek a, h.holds, h.wf⟩

theorem Bus.OnlyStored.trans {as bs : List Address} {a b c : Bus} (h : a.OnlyStored as b)
    (h' : b.OnlyStored bs c) : a.OnlyStored (as ++ bs) c :=
  ⟨fun x hx => by
      simp only [List.mem_append, not_or] at hx
      exact (h'.peek x hx.2).trans (h.peek x hx.1),
   fun x hx => h'.holds x (h.holds x hx), fun hx => h'.wf (h.wf hx)⟩

theorem Bus.OnlyStored.mono {as bs : List Address} {b c : Bus} (h : b.OnlyStored as c)
    (hs : ∀ a ∈ as, a ∈ bs) : b.OnlyStored bs c :=
  ⟨fun x hx => h.peek x fun hx' => hx (hs x hx'), h.holds, h.wf⟩

theorem Loc.span_w8 (l : Loc) : l.span Width.w8.bytes = [l.addr 0] := rfl
theorem Loc.span_w16 (l : Loc) : l.span Width.w16.bytes = [l.addr 0, l.addr 1] := rfl

theorem Bus.onlyStored_writeW (b : Bus) (w : Width) (l : Loc) (v : Word) :
    b.OnlyStored (l.span w.bytes) (b.writeW w l v) := by
  cases w
  · exact onlyStored_storeByte b _ _
  · exact (onlyStored_storeByte b _ _).trans (onlyStored_storeByte _ _ _)

theorem Bus.onlyStored_writeHL (b : Bus) (w : Width) (l : Loc) (v : Word) :
    b.OnlyStored (l.span w.bytes) (b.writeHL w l v) := by
  cases w
  · exact onlyStored_storeByte b _ _
  · exact ((onlyStored_storeByte b _ _).trans (onlyStored_storeByte _ _ _)).mono (by
      intro a ha; simp only [Loc.span_w16]; simp at ha ⊢; tauto)

/-- The two bytes of a location are two addresses. -/
theorem Loc.addr_zero_ne_one (l : Loc) : l.addr 0 ≠ l.addr 1 := by
  intro h
  cases l with
  | lin a =>
    have h := congrArg BitVec.toNat h
    have := a.isLt
    simp only [addr, BitVec.toNat_add, BitVec.toNat_ofNat] at h
    omega
  | bank0 o =>
    have h := congrArg BitVec.toNat (mkAddress_inj.mp h).2
    have := o.isLt
    simp only [BitVec.toNat_add, BitVec.toNat_ofNat] at h
    omega
  | page p o =>
    have h := congrArg BitVec.toNat (joinBytes_inj.mp (mkAddress_inj.mp h).2).2
    have := o.isLt
    simp only [BitVec.toNat_add, BitVec.toNat_ofNat] at h
    omega
  | prog bk o =>
    have h := congrArg BitVec.toNat (mkAddress_inj.mp h).2
    have := o.isLt
    simp only [BitVec.toNat_add, BitVec.toNat_ofNat] at h
    omega

theorem Bus.peek_writeW {b : Bus} (hb : b.wf) {w : Width} {l : Loc} {k : Nat} (hk : k < w.bytes)
    (h : b.Holds (l.addr k)) (v : Word) :
    (b.writeW w l v).peek (l.addr k) = some (if k = 0 then lowByte v else highByte v) := by
  cases w with
  | w8 =>
    obtain rfl : k = 0 := by simp only [Width.bytes] at hk; omega
    exact h.peek_storeByte hb _
  | w16 =>
    have hk' : k = 0 ∨ k = 1 := by simp only [Width.bytes] at hk; omega
    rcases hk' with rfl | rfl
    · simp only [writeW]
      rw [peek_storeByte_ne _ l.addr_zero_ne_one]
      exact h.peek_storeByte hb _
    · exact (h.storeByte _ _).peek_storeByte (wf_storeByte hb _ _) _

theorem Bus.peek_writeHL {b : Bus} (hb : b.wf) {w : Width} {l : Loc} {k : Nat} (hk : k < w.bytes)
    (h : b.Holds (l.addr k)) (v : Word) :
    (b.writeHL w l v).peek (l.addr k) = some (if k = 0 then lowByte v else highByte v) := by
  cases w with
  | w8 =>
    obtain rfl : k = 0 := by simp only [Width.bytes] at hk; omega
    exact h.peek_storeByte hb _
  | w16 =>
    have hk' : k = 0 ∨ k = 1 := by simp only [Width.bytes] at hk; omega
    rcases hk' with rfl | rfl
    · exact (h.storeByte _ _).peek_storeByte (wf_storeByte hb _ _) _
    · simp only [writeHL]
      rw [peek_storeByte_ne _ l.addr_zero_ne_one.symm]
      exact h.peek_storeByte hb _

/-! ### Pushes -/

theorem State.onlyStored_push8 (s : State) (v : Byte) :
    s.bus.OnlyStored (pushSlots s.e 1 s.sp) (s.push8 v).bus := Bus.onlyStored_storeByte _ _ _

theorem State.onlyStored_push16 (s : State) (v : Word) :
    s.bus.OnlyStored (pushSlots s.e 2 s.sp) (s.push16 v).bus :=
  (s.onlyStored_push8 _).trans ((s.push8 (highByte v)).onlyStored_push8 _)

/-- A push that follows reads of the bus. -/
theorem State.onlyStored_push16_withBus (s : State) {b : Bus} (h : s.bus.OnlyRead b) (v : Word) :
    s.bus.OnlyStored (pushSlots s.e 2 s.sp) ((s.withBus b).push16 v).bus :=
  h.stored.trans ((s.withBus b).onlyStored_push16 v)

theorem State.onlyStored_push24 (s : State) (bank : Byte) (v : Word) :
    s.bus.OnlyStored (pushSlots s.e 3 s.sp) (s.push24 bank v).bus :=
  (s.onlyStored_push8 _).trans ((s.push8 bank).onlyStored_push16 _)

theorem State.onlyStored_pushW (s : State) (w : Width) (v : Word) :
    s.bus.OnlyStored (pushSlots s.e w.bytes s.sp) (s.pushW w v).bus := by
  cases w
  · exact s.onlyStored_push8 _
  · exact s.onlyStored_push16 _

/-- An interrupt frame: four bytes in native mode, three in emulation mode. -/
theorem State.onlyStored_pushInterruptFrame (s : State) :
    s.bus.OnlyStored (pushSlots s.e (if s.e then 3 else 4) s.sp) s.pushInterruptFrame.bus := by
  cases he : s.e
  · have h := (s.onlyStored_push8 s.pbr).trans
      (((s.push8 s.pbr).onlyStored_push16 (s.pc + 2)).trans
        (((s.push8 s.pbr).push16 (s.pc + 2)).onlyStored_push8 (pushedP s.e s.p)))
    simpa [pushInterruptFrame, he, pushSlots] using h
  · have h := (s.onlyStored_push16 (s.pc + 2)).trans
      ((s.push16 (s.pc + 2)).onlyStored_push8 (pushedP s.e s.p))
    simpa [pushInterruptFrame, he, pushSlots] using h

/-! ### The stack pointer -/

@[simp] theorem highByte_stackDown (sp : Word) : highByte (stackDown true sp) = 0x01 := by simp [stackDown]

@[simp] theorem highByte_stackUp (sp : Word) : highByte (stackUp true sp) = 0x01 := by simp [stackUp]

/-- A pull undoes a push's move of S; in emulation mode from page 1 only. -/
theorem stackUp_stackDown {e : Bool} {sp : Word} (h : e = true → highByte sp = 0x01) :
    stackUp e (stackDown e sp) = sp := by
  cases e
  · simp [stackUp, stackDown]
  · simp only [stackUp, stackDown, if_true, lowByte_joinBytes, BitVec.sub_add_cancel]
    rw [← h rfl, joinBytes_highByte_lowByte]

theorem highByte_stackDown_of {e : Bool} {sp : Word} : e = true → highByte (stackDown e sp) = 0x01 := by
  rintro rfl; simp

/-- `n` pushes store to `n` addresses that differ, for the few a program's instruction makes. -/
theorem stackAddress_ne_down (e : Bool) (sp : Word) (h : e = true → highByte sp = 0x01) (k : Nat)
    (hk : 0 < k) (hk' : k < 256) : stackAddress ((stackDown e)^[k] sp) ≠ stackAddress sp := by
  intro he
  have he := (mkAddress_inj.mp he).2
  cases e with
  | false =>
    have hit : ∀ n, (stackDown false)^[n] sp = sp - BitVec.ofNat 16 n := by
      intro n
      induction n with
      | zero => simp
      | succ n ih =>
        rw [Function.iterate_succ_apply', ih]
        apply BitVec.eq_of_toNat_eq
        have h1 : (1 : Word).toNat = 1 := rfl
        simp only [stackDown, Bool.false_eq_true, if_false, BitVec.toNat_sub, BitVec.toNat_ofNat, h1]
        omega
    rw [hit] at he
    have he := congrArg BitVec.toNat he
    have := sp.isLt
    simp only [BitVec.toNat_sub, BitVec.toNat_ofNat] at he
    omega
  | true =>
    have hit : ∀ n, lowByte ((stackDown true)^[n] sp) = lowByte sp - BitVec.ofNat 8 n := by
      intro n
      induction n with
      | zero => simp
      | succ n ih =>
        rw [Function.iterate_succ_apply']
        simp only [stackDown, if_true, lowByte_joinBytes, ih]
        apply BitVec.eq_of_toNat_eq
        have h1 : (1 : Byte).toNat = 1 := rfl
        simp only [BitVec.toNat_sub, BitVec.toNat_ofNat, h1]
        omega
    have he := congrArg BitVec.toNat (congrArg lowByte he)
    rw [hit] at he
    have := (lowByte sp).isLt
    simp only [BitVec.toNat_sub, BitVec.toNat_ofNat] at he
    omega

/-- A pull from a byte the model can read gives that byte and changes S only. -/
theorem State.pull8_of_peek {s : State} {sp : Word} {v : Byte} (hs : stackUp s.e s.sp = sp)
    (hv : s.bus.peek (stackAddress sp) = some v) : s.pull8 = { val := v, st := { s with sp := sp } } := by
  subst hs
  simp only [pull8, Bus.readByte_of_peek hv]

/-- What one push leaves readable: its own byte where RAM answers, and every other byte as before. -/
theorem State.peek_push8 (s : State) (hb : s.bus.wf) (h : s.bus.Holds (stackAddress s.sp)) (v : Byte) (a : Address) :
    (s.push8 v).bus.peek a = if a = stackAddress s.sp then some v else s.bus.peek a := by
  split
  · rename_i e; subst e; exact h.peek_storeByte hb v
  · rename_i e; exact Bus.peek_storeByte_ne _ e v

/-! ### Several pushes -/

/-- Bytes pushed one after another. -/
def State.pushes (s : State) (bytes : List Byte) : State :=
  match bytes with
  | []        => s
  | v :: rest => (s.push8 v).pushes rest

theorem State.pushes_frame (s : State) (bytes : List Byte) :
    s.pushes bytes = { s with
      bus := (s.pushes bytes).bus
      sp  := (stackDown s.e)^[bytes.length] s.sp } := by
  induction bytes generalizing s with
  | nil => rfl
  | cons v rest ih =>
    rw [pushes, ih (s.push8 v)]
    rfl

theorem State.peek_pushes_other (s : State) (bytes : List Byte) {a : Address}
    (h : ∀ j < bytes.length, a ≠ stackAddress ((stackDown s.e)^[j] s.sp)) :
    (s.pushes bytes).bus.peek a = s.bus.peek a := by
  induction bytes generalizing s with
  | nil => rfl
  | cons v rest ih =>
    rw [pushes, ih (s.push8 v) fun j hj => h (j + 1) (by simpa using hj)]
    exact Bus.peek_storeByte_ne _ (h 0 (by simp)) v

theorem mem_pushSlots {e : Bool} {n : Nat} {sp : Word} {j : Nat} (h : j < n) :
    stackAddress ((stackDown e)^[j] sp) ∈ pushSlots e n sp := by
  induction n generalizing sp j with
  | zero => omega
  | succ n ih =>
    cases j with
    | zero => simp [pushSlots]
    | succ j => exact List.mem_cons_of_mem _ (ih (by omega))

/-- Pushed bytes are readable where they were pushed, in RAM; in emulation mode from page 1. -/
theorem State.peek_pushes (s : State) (bytes : List Byte) (hn : bytes.length < 256) (hb : s.bus.wf)
    (hp : s.e = true → highByte s.sp = 0x01)
    (hh : ∀ a ∈ pushSlots s.e bytes.length s.sp, s.bus.Holds a) {j : Nat} (hj : j < bytes.length) :
    (s.pushes bytes).bus.peek (stackAddress ((stackDown s.e)^[j] s.sp)) = some bytes[j] := by
  induction bytes generalizing s j with
  | nil => simp at hj
  | cons v rest ih =>
    simp only [List.length_cons] at hn hj hh
    have h0 : s.bus.Holds (stackAddress s.sp) := hh _ (by simp [pushSlots])
    cases j with
    | zero =>
      rw [pushes, peek_pushes_other]
      · exact h0.peek_storeByte hb v
      · intro k hk
        exact (stackAddress_ne_down s.e s.sp hp (k + 1) (by omega) (by omega)).symm
    | succ j =>
      exact ih (s.push8 v) (by omega) (Bus.wf_storeByte hb _ _) highByte_stackDown_of
        (fun a ha => (hh a (List.mem_cons_of_mem _ ha)).storeByte _ _) (by omega)

/-- A pull in a state whose stack was pushed: the last byte comes back first. -/
theorem State.pull8_pushed {s u : State} {bytes : List Byte} (hn : bytes.length < 256) (hb : s.bus.wf)
    (hp : s.e = true → highByte s.sp = 0x01)
    (hh : ∀ a ∈ pushSlots s.e bytes.length s.sp, s.bus.Holds a) {j : Nat} (hj : j < bytes.length)
    (he : u.e = s.e) (hsp : u.sp = (stackDown s.e)^[j + 1] s.sp)
    (hbus : ∀ a, u.bus.peek a = (s.pushes bytes).bus.peek a) :
    u.pull8 = { val := bytes[j], st := { u with sp := (stackDown s.e)^[j] s.sp } } := by
  refine pull8_of_peek ?_ (by rw [hbus]; exact s.peek_pushes bytes hn hb hp hh hj)
  rw [he, hsp, Function.iterate_succ_apply']
  refine stackUp_stackDown ?_
  cases j with
  | zero => exact hp
  | succ j => rw [Function.iterate_succ_apply']; exact highByte_stackDown_of

end Sys2Proof.Machine
end

