-- ==== Sys2Proof/Laws/Shape.lean ====
section
/-! SUPPORT. What `exec` does by shape: one equation for each shared pattern, with the row of the cycle
table as its cost. The claims about a mnemonic cite these and never split the opcode map again. -/

namespace Sys2Proof

open Sys2Proof.Machine

/-- The row of the cycle table for an instruction (70_reset_and_hazards.md R471, R472). -/
def Instr.tableCost (i : Instr) : Cost := { base := baseCycles i.opcode, notes := notesOf i.opcode }

end Sys2Proof

namespace Sys2Proof.Machine

/-- The computation of an accumulator instruction. -/
def AccOp.fn (op : AccOp) : Width → Word → Word → Byte → AluOut :=
  match op with
  | .lda => ldaOp
  | .adc => adcOp
  | .sbc => sbcOp
  | .and => andOp
  | .ora => oraOp
  | .eor => eorOp

/-- The computation of a read-modify-write instruction, with the accumulator TSB and TRB test. -/
def ModifyOp.fn (op : ModifyOp) (acc : Word) (w : Width) (v : Word) (p : Byte) : AluOut :=
  match op with
  | .asl => aslOp w v p
  | .lsr => lsrOp w v p
  | .rol => rolOp w v p
  | .ror => rorOp w v p
  | .inc => incOp w v p
  | .dec => decOp w v p
  | .tsb => tsbOp acc v p
  | .trb => trbOp w acc v p

/-- The width a comparison has. -/
def CompareReg.width (r : CompareReg) (s : State) : Width :=
  match r with
  | .a => s.wm
  | .x | .y => s.wx

/-- The value a comparison compares with. -/
def CompareReg.value (r : CompareReg) (s : State) : Word :=
  match r with
  | .a => s.acc s.wm
  | .x => s.xe
  | .y => s.ye

/-- The width a store has. -/
def StoreReg.width (r : StoreReg) (s : State) : Width :=
  match r with
  | .a | .zero => s.wm
  | .x | .y => s.wx

/-- The value a store stores. -/
def StoreReg.value (r : StoreReg) (s : State) : Word :=
  match r with
  | .a => s.acc s.wm
  | .x => s.xe
  | .y => s.ye
  | .zero => 0

/-- P after BIT, which in its immediate form sets Z only (43_arith_logic.md R268). -/
def bitFn (o : Operand) (w : Width) (a v : Word) (p : Byte) : Byte :=
  match o with
  | .imm _ => putTestZ a v p
  | .mem _ => bitP w a v p

/-- What an instruction of a shape does, at the cost `k`. -/
def Shape.run (sh : Shape) (k : Cost) (s : State) : State :=
  match sh with
  | .acc op o       => accumulate op.fn o k s
  | .loadX o        => ldx o k s
  | .loadY o        => ldy o k s
  | .compare r o    => testOperand compareP (r.width s) (r.value s) o k s
  | .bit o          => testOperand (bitFn o) s.wm (s.acc s.wm) o k s
  | .store r m      => storeValue (r.width s) (r.value s) m k s
  | .modify op m    => modifyMemory (op.fn (s.acc s.wm)) m k s
  | .modifyA op     => modifyAccumulator (op.fn (s.acc s.wm)) k s
  | .branch cond r  => Machine.branch (branchTaken cond s) r k s
  | .other          => s

/-- `exec` of an instruction that has a shape. -/
theorem exec_of_shape {i : Instr} {sh : Shape} (h : i.shape = sh) (ho : sh ≠ .other) (s : State) :
    exec i s = .next (sh.run i.tableCost s) := by
  subst h
  cases i <;> first
    | exact absurd rfl ho
    | (simp only [Instr.tableCost, Instr.opcode, Instr.encoded, Instr.shape]; rfl)
    | (simp only [Instr.tableCost, Instr.opcode, Instr.encoded, Instr.shape, Shape.run, branchTaken, beq_true,
        beq_false]
       rfl)

/-! ### Costs -/

/-- The cost of a shape, from its row of the table. -/
def Shape.cost (sh : Shape) (k : Cost) (s : State) : Nat :=
  match sh with
  | .acc _ o | .loadX o | .loadY o | .compare _ o | .bit o => cycleCost k s (o.crossed s) false
  | .store _ m | .modify _ m => cycleCost k s (s.effective m).crossed false
  | .modifyA _ | .other => plainCost k s
  | .branch cond r => cycleCost k s (branchPage r s) (branchTaken cond s)

/-- What an instruction of a shape costs. -/
theorem cost_of_shape {i : Instr} {sh : Shape} (h : i.shape = sh) (s : State) :
    i.cost s = sh.cost i.tableCost s := by
  subst h
  rw [cost_eq_cycleCost, Instr.crossed, Instr.taken]
  cases i.shape <;> rfl

theorem Operand.crossed_eq_load (o : Operand) (w : Width) (s : State) : (s.load w o).crossed = o.crossed s := by
  cases o <;> rfl

theorem tableCost_of_opcode {i : Instr} {op : Byte} {k : Cost} (h : i.opcode = op)
    (hk : (⟨baseCycles op, notesOf op⟩ : Cost) = k) : i.tableCost = k := by
  subst h; exact hk

@[simp] theorem tableCost_brk (sig : Byte) : (Instr.brk sig).tableCost = ⟨7, [.n4]⟩ :=
  tableCost_of_opcode (op := 0x00) rfl rfl
@[simp] theorem tableCost_cop (sig : Byte) : (Instr.cop sig).tableCost = ⟨7, [.n4]⟩ :=
  tableCost_of_opcode (op := 0x02) rfl rfl
@[simp] theorem tableCost_php : Instr.php.tableCost = ⟨3, []⟩ :=
  tableCost_of_opcode (op := 0x08) rfl rfl
@[simp] theorem tableCost_phd : Instr.phd.tableCost = ⟨4, []⟩ :=
  tableCost_of_opcode (op := 0x0B) rfl rfl
@[simp] theorem tableCost_clc : Instr.clc.tableCost = ⟨2, []⟩ :=
  tableCost_of_opcode (op := 0x18) rfl rfl
@[simp] theorem tableCost_tcs : Instr.tcs.tableCost = ⟨2, []⟩ :=
  tableCost_of_opcode (op := 0x1B) rfl rfl
@[simp] theorem tableCost_jsrJabs (a : Word) : (Instr.jsrJabs a).tableCost = ⟨6, []⟩ :=
  tableCost_of_opcode (op := 0x20) rfl rfl
@[simp] theorem tableCost_jsl (a : Address) : (Instr.jsl a).tableCost = ⟨8, []⟩ :=
  tableCost_of_opcode (op := 0x22) rfl rfl
@[simp] theorem tableCost_plp : Instr.plp.tableCost = ⟨4, []⟩ :=
  tableCost_of_opcode (op := 0x28) rfl rfl
@[simp] theorem tableCost_pld : Instr.pld.tableCost = ⟨5, []⟩ :=
  tableCost_of_opcode (op := 0x2B) rfl rfl
@[simp] theorem tableCost_sec : Instr.sec.tableCost = ⟨2, []⟩ :=
  tableCost_of_opcode (op := 0x38) rfl rfl
@[simp] theorem tableCost_tsc : Instr.tsc.tableCost = ⟨2, []⟩ :=
  tableCost_of_opcode (op := 0x3B) rfl rfl
@[simp] theorem tableCost_rti : Instr.rti.tableCost = ⟨6, [.n4]⟩ :=
  tableCost_of_opcode (op := 0x40) rfl rfl
@[simp] theorem tableCost_wdm (sig : Byte) : (Instr.wdm sig).tableCost = ⟨2, []⟩ :=
  tableCost_of_opcode (op := 0x42) rfl rfl
@[simp] theorem tableCost_mvp (dd ss : Byte) : (Instr.mvp dd ss).tableCost = ⟨7, [.n9]⟩ :=
  tableCost_of_opcode (op := 0x44) rfl rfl
@[simp] theorem tableCost_pha : Instr.pha.tableCost = ⟨3, [.n1]⟩ :=
  tableCost_of_opcode (op := 0x48) rfl rfl
@[simp] theorem tableCost_phk : Instr.phk.tableCost = ⟨3, []⟩ :=
  tableCost_of_opcode (op := 0x4B) rfl rfl
@[simp] theorem tableCost_jmpJabs (a : Word) : (Instr.jmpJabs a).tableCost = ⟨3, []⟩ :=
  tableCost_of_opcode (op := 0x4C) rfl rfl
@[simp] theorem tableCost_mvn (dd ss : Byte) : (Instr.mvn dd ss).tableCost = ⟨7, [.n9]⟩ :=
  tableCost_of_opcode (op := 0x54) rfl rfl
@[simp] theorem tableCost_cli : Instr.cli.tableCost = ⟨2, []⟩ :=
  tableCost_of_opcode (op := 0x58) rfl rfl
@[simp] theorem tableCost_phy : Instr.phy.tableCost = ⟨3, [.n10]⟩ :=
  tableCost_of_opcode (op := 0x5A) rfl rfl
@[simp] theorem tableCost_tcd : Instr.tcd.tableCost = ⟨2, []⟩ :=
  tableCost_of_opcode (op := 0x5B) rfl rfl
@[simp] theorem tableCost_jmlJlong (a : Address) : (Instr.jmlJlong a).tableCost = ⟨4, []⟩ :=
  tableCost_of_opcode (op := 0x5C) rfl rfl
@[simp] theorem tableCost_rts : Instr.rts.tableCost = ⟨6, []⟩ :=
  tableCost_of_opcode (op := 0x60) rfl rfl
@[simp] theorem tableCost_per (r : Word) : (Instr.per r).tableCost = ⟨6, []⟩ :=
  tableCost_of_opcode (op := 0x62) rfl rfl
@[simp] theorem tableCost_pla : Instr.pla.tableCost = ⟨4, [.n1]⟩ :=
  tableCost_of_opcode (op := 0x68) rfl rfl
@[simp] theorem tableCost_rtl : Instr.rtl.tableCost = ⟨6, []⟩ :=
  tableCost_of_opcode (op := 0x6B) rfl rfl
@[simp] theorem tableCost_jmpIabs (a : Word) : (Instr.jmpIabs a).tableCost = ⟨5, []⟩ :=
  tableCost_of_opcode (op := 0x6C) rfl rfl
@[simp] theorem tableCost_sei : Instr.sei.tableCost = ⟨2, []⟩ :=
  tableCost_of_opcode (op := 0x78) rfl rfl
@[simp] theorem tableCost_ply : Instr.ply.tableCost = ⟨4, [.n10]⟩ :=
  tableCost_of_opcode (op := 0x7A) rfl rfl
@[simp] theorem tableCost_tdc : Instr.tdc.tableCost = ⟨2, []⟩ :=
  tableCost_of_opcode (op := 0x7B) rfl rfl
@[simp] theorem tableCost_jmpIabsx (a : Word) : (Instr.jmpIabsx a).tableCost = ⟨6, []⟩ :=
  tableCost_of_opcode (op := 0x7C) rfl rfl
@[simp] theorem tableCost_brl (r : Word) : (Instr.brl r).tableCost = ⟨4, []⟩ :=
  tableCost_of_opcode (op := 0x82) rfl rfl
@[simp] theorem tableCost_dey : Instr.dey.tableCost = ⟨2, []⟩ :=
  tableCost_of_opcode (op := 0x88) rfl rfl
@[simp] theorem tableCost_txa : Instr.txa.tableCost = ⟨2, []⟩ :=
  tableCost_of_opcode (op := 0x8A) rfl rfl
@[simp] theorem tableCost_phb : Instr.phb.tableCost = ⟨3, []⟩ :=
  tableCost_of_opcode (op := 0x8B) rfl rfl
@[simp] theorem tableCost_tya : Instr.tya.tableCost = ⟨2, []⟩ :=
  tableCost_of_opcode (op := 0x98) rfl rfl
@[simp] theorem tableCost_txs : Instr.txs.tableCost = ⟨2, []⟩ :=
  tableCost_of_opcode (op := 0x9A) rfl rfl
@[simp] theorem tableCost_txy : Instr.txy.tableCost = ⟨2, []⟩ :=
  tableCost_of_opcode (op := 0x9B) rfl rfl
@[simp] theorem tableCost_tay : Instr.tay.tableCost = ⟨2, []⟩ :=
  tableCost_of_opcode (op := 0xA8) rfl rfl
@[simp] theorem tableCost_tax : Instr.tax.tableCost = ⟨2, []⟩ :=
  tableCost_of_opcode (op := 0xAA) rfl rfl
@[simp] theorem tableCost_plb : Instr.plb.tableCost = ⟨4, []⟩ :=
  tableCost_of_opcode (op := 0xAB) rfl rfl
@[simp] theorem tableCost_clv : Instr.clv.tableCost = ⟨2, []⟩ :=
  tableCost_of_opcode (op := 0xB8) rfl rfl
@[simp] theorem tableCost_tsx : Instr.tsx.tableCost = ⟨2, []⟩ :=
  tableCost_of_opcode (op := 0xBA) rfl rfl
@[simp] theorem tableCost_tyx : Instr.tyx.tableCost = ⟨2, []⟩ :=
  tableCost_of_opcode (op := 0xBB) rfl rfl
@[simp] theorem tableCost_rep (mask : Byte) : (Instr.rep mask).tableCost = ⟨3, []⟩ :=
  tableCost_of_opcode (op := 0xC2) rfl rfl
@[simp] theorem tableCost_iny : Instr.iny.tableCost = ⟨2, []⟩ :=
  tableCost_of_opcode (op := 0xC8) rfl rfl
@[simp] theorem tableCost_dex : Instr.dex.tableCost = ⟨2, []⟩ :=
  tableCost_of_opcode (op := 0xCA) rfl rfl
@[simp] theorem tableCost_wai : Instr.wai.tableCost = ⟨3, []⟩ :=
  tableCost_of_opcode (op := 0xCB) rfl rfl
@[simp] theorem tableCost_pei (d : Byte) : (Instr.pei d).tableCost = ⟨6, [.n2]⟩ :=
  tableCost_of_opcode (op := 0xD4) rfl rfl
@[simp] theorem tableCost_cld : Instr.cld.tableCost = ⟨2, []⟩ :=
  tableCost_of_opcode (op := 0xD8) rfl rfl
@[simp] theorem tableCost_phx : Instr.phx.tableCost = ⟨3, [.n10]⟩ :=
  tableCost_of_opcode (op := 0xDA) rfl rfl
@[simp] theorem tableCost_stp : Instr.stp.tableCost = ⟨3, []⟩ :=
  tableCost_of_opcode (op := 0xDB) rfl rfl
@[simp] theorem tableCost_jmlIlabs (a : Word) : (Instr.jmlIlabs a).tableCost = ⟨6, []⟩ :=
  tableCost_of_opcode (op := 0xDC) rfl rfl
@[simp] theorem tableCost_sep (mask : Byte) : (Instr.sep mask).tableCost = ⟨3, []⟩ :=
  tableCost_of_opcode (op := 0xE2) rfl rfl
@[simp] theorem tableCost_inx : Instr.inx.tableCost = ⟨2, []⟩ :=
  tableCost_of_opcode (op := 0xE8) rfl rfl
@[simp] theorem tableCost_nop : Instr.nop.tableCost = ⟨2, []⟩ :=
  tableCost_of_opcode (op := 0xEA) rfl rfl
@[simp] theorem tableCost_xba : Instr.xba.tableCost = ⟨3, []⟩ :=
  tableCost_of_opcode (op := 0xEB) rfl rfl
@[simp] theorem tableCost_pea (v : Word) : (Instr.pea v).tableCost = ⟨5, []⟩ :=
  tableCost_of_opcode (op := 0xF4) rfl rfl
@[simp] theorem tableCost_sed : Instr.sed.tableCost = ⟨2, []⟩ :=
  tableCost_of_opcode (op := 0xF8) rfl rfl
@[simp] theorem tableCost_plx : Instr.plx.tableCost = ⟨4, [.n10]⟩ :=
  tableCost_of_opcode (op := 0xFA) rfl rfl
@[simp] theorem tableCost_xce : Instr.xce.tableCost = ⟨2, []⟩ :=
  tableCost_of_opcode (op := 0xFB) rfl rfl
@[simp] theorem tableCost_jsrIabsx (a : Word) : (Instr.jsrIabsx a).tableCost = ⟨8, []⟩ :=
  tableCost_of_opcode (op := 0xFC) rfl rfl

/-- What an instruction without a shape costs. -/
theorem cost_of_other {i : Instr} (h : i.shape = .other) (s : State) : i.cost s = plainCost i.tableCost s :=
  cost_of_shape h s

end Sys2Proof.Machine
end

