-- ==== Sys2Proof/Laws/Patterns.lean ====
section
/-! SUPPORT. What each shared pattern of the families does, said once: the value, P, the bus, the program
address and the cycles, and the frame. -/

namespace Sys2Proof.Machine

/-! ### Flags and frames -/

theorem setsNZ_of_putNZ {w : Width} {v : Word} {p : Byte} {t : State} (h : t.p = putNZ w v p) : SetsNZ w v t := by
  simp [SetsNZ, State.flag, h, getFlag_putNZ, beq_eq_decide]

@[simp] theorem setsNZ_trunc {w : Width} {v : Word} {t : State} : SetsNZ w (w.trunc v) t ↔ SetsNZ w v t := by
  simp [SetsNZ]

theorem keepsFlags_of_putNZ {w : Width} {v : Word} {s t : State} (h : t.p = putNZ w v s.p) :
    KeepsFlagsBut [.n, .z] s t := by
  intro f hf
  cases f <;> simp [State.flag, h, getFlag_putNZ] at hf ⊢

theorem keepsFlags_of_eq {s t : State} (h : t.p = s.p) (fs : List Flag) : KeepsFlagsBut fs s t := by
  intro f _
  simp [State.flag, h]

theorem Width.trunc_eq_zero_of_trunc {w : Width} {v : Word} (h : w.trunc v = v) :
    decide (w.trunc v = 0) = decide (v = 0) := by rw [h]

theorem KeepsFieldsBut.trans {fs : List Field} {s t u : State} (h : KeepsFieldsBut fs s t)
    (h' : KeepsFieldsBut fs t u) : KeepsFieldsBut fs s u := by
  intro f hf
  have h1 := h f hf
  have h2 := h' f hf
  cases f <;> exact h2.trans h1

theorem KeepsFieldsBut.mono {fs gs : List Field} {s t : State} (h : KeepsFieldsBut fs s t)
    (hs : ∀ f ∈ fs, f ∈ gs) : KeepsFieldsBut gs s t := fun f hf => h f fun hf' => hf (hs f hf')

theorem KeepsFlagsBut.mono {fs gs : List Flag} {s t : State} (h : KeepsFlagsBut fs s t)
    (hs : ∀ f ∈ fs, f ∈ gs) : KeepsFlagsBut gs s t := fun f hf => h f fun hf' => hf (hs f hf')

theorem Bus.OnlyRead.keepsMemory {s t : State} (h : s.bus.OnlyRead t.bus) : KeepsMemory s t := h.peek

theorem Bus.OnlyStored.keepsMemoryBut {as : List Address} {s t : State} (h : s.bus.OnlyStored as t.bus) :
    KeepsMemoryBut as s t := h.peek

/-- The frame of an instruction that writes registers and flags only, from its fields. -/
theorem registerOnly_of {i : Instr} {fs : List Field} {gs : List Flag} {s t : State} (hi : i.shape = .other)
    (hb : t.bus = s.bus) (hpc : t.pc = s.pc + 1) (hc : t.cycles = s.cycles + (plainCost i.tableCost s : Nat))
    (hf : KeepsFieldsBut (fs ++ [.pc, .cycles]) s t) (hg : KeepsFlagsBut gs s t) : RegisterOnly i fs gs s t :=
  ⟨hb, ⟨hpc, by rw [cost_of_other hi]; exact hc⟩, hf, hg, fun a => by rw [hb]⟩

/-- P after the flags of a sum: N, V, Z and C only. -/
theorem getFlag_sumOut (w : Width) (r : SumOut) (p : Byte) (f : Flag) :
    getFlag (sumOut w r p).p f = match f with
      | .n => w.msb r.value
      | .v => r.overflow
      | .z => w.trunc r.value == 0
      | .c => r.carry
      | f  => getFlag p f := by
  cases f <;> simp [sumOut, getFlag_putNZ, getFlag_putFlag]

/-! ### The accumulator pattern -/

/-- Everything an accumulator instruction does. -/
structure Accumulates (f : Width → Word → Word → Byte → AluOut) (o : Operand) (k : Cost) (s t : State) :
    Prop where
  acc    : t.c = s.accWith s.wm (f s.wm (s.acc s.wm) (s.load s.wm o).value s.p).value
  p      : t.p = (f s.wm (s.acc s.wm) (s.load s.wm o).value s.p).p
  bus    : t.bus = (s.load s.wm o).bus
  pc     : t.pc = s.pc + BitVec.ofNat 16 (o.len s.wm)
  cycles : t.cycles = s.cycles + (cycleCost k s (o.crossed s) false : Nat)
  fields : KeepsFieldsBut [.c, .pc, .cycles] s t
  memory : KeepsMemory s t

theorem accumulate_spec (f : Width → Word → Word → Byte → AluOut) (o : Operand) (k : Cost) (s : State) :
    Accumulates f o k s (accumulate f o k s) where
  acc := rfl
  p := rfl
  bus := rfl
  pc := rfl
  cycles := by rw [← o.crossed_eq_load s.wm s]; rfl
  fields := by intro g hg; cases g <;> first | (simp at hg; done) | rfl
  memory := (s.onlyRead_load s.wm o).peek

/-- Everything an instruction that only sets P from an operand does. -/
structure Tests (f : Width → Word → Word → Byte → Byte) (w : Width) (reg : Word) (o : Operand) (k : Cost)
    (s t : State) : Prop where
  p      : t.p = f w reg (s.load w o).value s.p
  bus    : t.bus = (s.load w o).bus
  pc     : t.pc = s.pc + BitVec.ofNat 16 (o.len w)
  cycles : t.cycles = s.cycles + (cycleCost k s (o.crossed s) false : Nat)
  fields : KeepsFieldsBut [.pc, .cycles] s t
  memory : KeepsMemory s t

theorem testOperand_spec (f : Width → Word → Word → Byte → Byte) (w : Width) (reg : Word) (o : Operand)
    (k : Cost) (s : State) : Tests f w reg o k s (testOperand f w reg o k s) where
  p := rfl
  bus := rfl
  pc := rfl
  cycles := by rw [← o.crossed_eq_load w s]; rfl
  fields := by intro g hg; cases g <;> first | (simp at hg; done) | rfl
  memory := (s.onlyRead_load w o).peek

/-! ### Stores and read-modify-write -/

/-- Everything a store does. -/
structure Stores (w : Width) (v : Word) (m : MemMode) (k : Cost) (s t : State) : Prop where
  bus    : t.bus = (s.effective m).bus.writeW w (s.effective m).loc v
  p      : t.p = s.p
  pc     : t.pc = s.pc + BitVec.ofNat 16 m.len
  cycles : t.cycles = s.cycles + (cycleCost k s (s.effective m).crossed false : Nat)
  fields : KeepsFieldsBut [.pc, .cycles] s t
  stored : s.bus.OnlyStored ((s.effective m).loc.span w.bytes) t.bus
  bytes  : StoresBytes w (s.effective m).loc v s t

theorem storeValue_spec (w : Width) (v : Word) (m : MemMode) (k : Cost) (s : State) :
    Stores w v m k s (storeValue w v m k s) where
  bus := rfl
  p := rfl
  pc := rfl
  cycles := rfl
  fields := by intro g hg; cases g <;> first | (simp at hg; done) | rfl
  stored := (s.onlyRead_effective m).stored.trans (Bus.onlyStored_writeW _ w _ v)
  bytes := fun hb _ hk hh =>
    Bus.peek_writeW ((s.onlyRead_effective m).wf hb) hk ((s.onlyRead_effective m).holds _ hh) v

/-- What a read-modify-write instruction makes of its operand. -/
def modifyOut (f : Width → Word → Byte → AluOut) (m : MemMode) (s : State) : AluOut :=
  f s.wm ((s.effective m).bus.readW s.wm (s.effective m).loc).val s.p

/-- Everything a read-modify-write instruction in memory does. -/
structure Modifies (f : Width → Word → Byte → AluOut) (m : MemMode) (k : Cost) (s t : State) : Prop where
  bus    : t.bus = ((s.effective m).bus.readW s.wm (s.effective m).loc).bus.writeHL s.wm
    (s.effective m).loc (modifyOut f m s).value
  p      : t.p = (modifyOut f m s).p
  pc     : t.pc = s.pc + BitVec.ofNat 16 m.len
  cycles : t.cycles = s.cycles + (cycleCost k s (s.effective m).crossed false : Nat)
  fields : KeepsFieldsBut [.pc, .cycles] s t
  stored : s.bus.OnlyStored ((s.effective m).loc.span s.wm.bytes) t.bus
  bytes  : StoresBytes s.wm (s.effective m).loc (modifyOut f m s).value s t

theorem onlyRead_modifyOperand (m : MemMode) (s : State) :
    s.bus.OnlyRead ((s.effective m).bus.readW s.wm (s.effective m).loc).bus :=
  (s.onlyRead_effective m).trans (Bus.onlyRead_readW _ _ _)

theorem modifyMemory_spec (f : Width → Word → Byte → AluOut) (m : MemMode) (k : Cost) (s : State) :
    Modifies f m k s (modifyMemory f m k s) where
  bus := rfl
  p := rfl
  pc := rfl
  cycles := rfl
  fields := by intro g hg; cases g <;> first | (simp at hg; done) | rfl
  stored := (onlyRead_modifyOperand m s).stored.trans (Bus.onlyStored_writeHL _ _ _ _)
  bytes := fun hb _ hk hh =>
    Bus.peek_writeHL ((onlyRead_modifyOperand m s).wf hb) hk ((onlyRead_modifyOperand m s).holds _ hh) _

/-- Everything the accumulator form of a shift or increment does. -/
structure ModifiesA (f : Width → Word → Byte → AluOut) (k : Cost) (s t : State) : Prop where
  acc    : t.c = s.accWith s.wm (f s.wm (s.acc s.wm) s.p).value
  p      : t.p = (f s.wm (s.acc s.wm) s.p).p
  bus    : t.bus = s.bus
  pc     : t.pc = s.pc + 1
  cycles : t.cycles = s.cycles + (plainCost k s : Nat)
  fields : KeepsFieldsBut [.c, .pc, .cycles] s t

theorem modifyAccumulator_spec (f : Width → Word → Byte → AluOut) (k : Cost) (s : State) :
    ModifiesA f k s (modifyAccumulator f k s) where
  acc := rfl
  p := rfl
  bus := rfl
  pc := rfl
  cycles := rfl
  fields := by intro g hg; cases g <;> first | (simp at hg; done) | rfl

/-! ### Pulls -/

/-- What a pull leaves alone. -/
theorem State.pull8_fields (s : State) : KeepsFieldsBut [.sp] s s.pull8.st := by
  intro g hg; cases g <;> first | (simp at hg; done) | rfl

theorem State.pull16_fields (s : State) : KeepsFieldsBut [.sp] s s.pull16.st := by
  intro g hg; cases g <;> first | (simp at hg; done) | rfl

theorem State.pullW_fields (s : State) (w : Width) : KeepsFieldsBut [.sp] s (s.pullW w).st := by
  cases w
  · exact s.pull8_fields
  · exact s.pull16_fields

theorem State.pullW_lt (s : State) (w : Width) : (s.pullW w).val.toNat < 2 ^ w.bits := by
  cases w
  · simp only [pullW, zeroExtend8_toNat, Width.bits]; exact s.pull8.val.isLt
  · exact s.pull16.val.isLt

/-! ### Software interrupts and the return -/

/-- The frame of an interrupt moves S and stores to the stack; nothing else. -/
theorem State.pushInterruptFrame_eq (s : State) :
    s.pushInterruptFrame = { s with bus := s.pushInterruptFrame.bus, sp := s.pushInterruptFrame.sp } := by
  unfold pushInterruptFrame
  split <;> rfl

/-- The entry, field by field (60_exceptions.md R410). -/
theorem State.interruptEntry_eq (s : State) (v : Word) (k : Cost) :
    s.interruptEntry v k = { s with
      bus    := s.pushInterruptFrame.bus
      sp     := s.pushInterruptFrame.sp
      p      := putFlag .d false (putFlag .i true s.p)
      pbr    := 0
      pc     := v
      cycles := s.cycles + (plainCost k s : Nat) } := by
  unfold interruptEntry
  simp only
  rw [pushInterruptFrame_eq]
  rfl

/-- The return, field by field (47_status_system.md R383). -/
theorem State.interruptReturn_eq (s : State) (k : Cost) :
    s.interruptReturn k =
      let p := s.pull8
      let r := p.st.pull16
      let b := r.st.pull8
      { s with
        p      := (s.writeP p.val).p
        x      := (s.writeP p.val).x
        y      := (s.writeP p.val).y
        pc     := r.val
        pbr    := if s.e then s.pbr else b.val
        bus    := if s.e then r.st.bus else b.st.bus
        sp     := if s.e then r.st.sp else b.st.sp
        cycles := s.cycles + (plainCost k s : Nat) } := by
  unfold interruptReturn pullReturnBank
  cases he : s.e <;> simp [pull16, pull8, setProgramAddress, addToCycles, writeP, he]

/-- `WriteP` as the claims see it. -/
theorem writesP_of_writeP {v : Byte} {s t : State} (hp : t.p = (s.writeP v).p) (hx : t.x = (s.writeP v).x)
    (hy : t.y = (s.writeP v).y) : WritesP v s t := by
  refine ⟨by rw [hp]; rfl, ?_, ?_⟩
  · rw [hx, State.flag, hp, State.writeP]; simp only; split <;> simp; rfl
  · rw [hy, State.flag, hp, State.writeP]; simp only; split <;> simp; rfl

/-! ### What every shape leaves alone -/

/-- No instruction with a shape writes a field outside C, X, Y, the program address and the cycles. -/
theorem Shape.run_fields (sh : Shape) (k : Cost) (s : State) :
    KeepsFieldsBut [.c, .x, .y, .pc, .cycles] s (sh.run k s) := by
  cases sh with
  | acc op o => exact (accumulate_spec op.fn o k s).fields.mono (by decide)
  | loadX o => intro g hg; cases g <;> first | (simp at hg; done) | rfl
  | loadY o => intro g hg; cases g <;> first | (simp at hg; done) | rfl
  | compare r o => exact (testOperand_spec _ _ _ o k s).fields.mono (by decide)
  | bit o => exact (testOperand_spec _ _ _ o k s).fields.mono (by decide)
  | store r m => exact (storeValue_spec _ _ m k s).fields.mono (by decide)
  | modify op m => exact (modifyMemory_spec _ m k s).fields.mono (by decide)
  | modifyA op => exact (modifyAccumulator_spec _ k s).fields.mono (by decide)
  | branch cond r => intro g hg; cases g <;> first | (simp at hg; done) | rfl
  | other => intro g _; cases g <;> rfl

theorem getFlag_accOp (op : AccOp) (w : Width) (a b : Word) (p : Byte) (f : Flag)
    (hf : f ≠ .n ∧ f ≠ .z ∧ (op = .adc ∨ op = .sbc → f ≠ .v ∧ f ≠ .c)) :
    getFlag (op.fn w a b p).p f = getFlag p f := by
  cases op <;> cases f <;>
    simp [AccOp.fn, ldaOp, andOp, oraOp, eorOp, nzOut, adcOp, sbcOp, getFlag_sumOut, getFlag_putNZ] at hf ⊢

theorem getFlag_modifyOp (op : ModifyOp) (a : Word) (w : Width) (v : Word) (p : Byte) (f : Flag)
    (hf : f ≠ .n ∧ f ≠ .z ∧ (op = .asl ∨ op = .lsr ∨ op = .rol ∨ op = .ror → f ≠ .c)) :
    getFlag (op.fn a w v p).p f = getFlag p f := by
  cases op <;> cases f <;>
    simp [ModifyOp.fn, aslOp, lsrOp, rolOp, rorOp, incOp, decOp, tsbOp, trbOp, putTestZ, nzOut, getFlag_putNZ,
      getFlag_putFlag] at hf ⊢

/-- Which shapes write V and C; none writes M, X, D or I. -/
theorem Shape.run_flags (sh : Shape) (k : Cost) (s : State) (f : Flag) (hf : f ≠ .n ∧ f ≠ .z)
    (hv : f = .v → (∀ o, sh ≠ .acc .adc o ∧ sh ≠ .acc .sbc o) ∧ ∀ m, sh ≠ .bit (.mem m))
    (hc : f = .c → (∀ o, sh ≠ .acc .adc o ∧ sh ≠ .acc .sbc o) ∧ (∀ r o, sh ≠ .compare r o) ∧
      ∀ op : ModifyOp, op = .asl ∨ op = .lsr ∨ op = .rol ∨ op = .ror →
        sh ≠ .modifyA op ∧ ∀ m, sh ≠ .modify op m) :
    (sh.run k s).flag f = s.flag f := by
  obtain ⟨hn, hz⟩ := hf
  cases sh with
  | acc op o =>
    refine getFlag_accOp op _ _ _ _ f ⟨hn, hz, fun h => ⟨fun e => ?_, fun e => ?_⟩⟩
    · rcases h with rfl | rfl
      · exact ((hv e).1 o).1 rfl
      · exact ((hv e).1 o).2 rfl
    · rcases h with rfl | rfl
      · exact ((hc e).1 o).1 rfl
      · exact ((hc e).1 o).2 rfl
  | loadX o => exact (keepsFlags_of_putNZ (t := ldx o k s) rfl) f (by simp [hn, hz])
  | loadY o => exact (keepsFlags_of_putNZ (t := ldy o k s) rfl) f (by simp [hn, hz])
  | compare r o =>
    have hc' : f ≠ .c := fun e => (hc e).2.1 r o rfl
    show getFlag (compareP _ _ _ s.p) f = getFlag s.p f
    cases f <;> simp [compareP, getFlag_putNZ, getFlag_putFlag] at hn hz hc' ⊢
  | bit o =>
    cases o with
    | imm v =>
      show getFlag (putTestZ _ _ s.p) f = getFlag s.p f
      simp [putTestZ, getFlag_putFlag, hz]
    | mem m =>
      have hv' : f ≠ .v := fun e => (hv e).2 m rfl
      show getFlag (bitP _ _ _ s.p) f = getFlag s.p f
      simp [bitP, putTestZ, getFlag_putFlag, hz, hn, hv']
  | store r m => rfl
  | modify op m => exact getFlag_modifyOp op _ _ _ _ f ⟨hn, hz, fun h e => ((hc e).2.2 op h).2 m rfl⟩
  | modifyA op => exact getFlag_modifyOp op _ _ _ _ f ⟨hn, hz, fun h e => ((hc e).2.2 op h).1 rfl⟩
  | branch cond r => rfl
  | other => rfl

/-- No instruction with a shape breaks the canonical form of memory. -/
theorem Shape.run_wf (sh : Shape) (k : Cost) {s : State} (h : s.bus.wf) : (sh.run k s).bus.wf := by
  cases sh with
  | acc op o => exact (s.onlyRead_load s.wm o).wf h
  | loadX o => exact (s.onlyRead_load s.wx o).wf h
  | loadY o => exact (s.onlyRead_load s.wx o).wf h
  | compare r o => exact (s.onlyRead_load _ o).wf h
  | bit o => exact (s.onlyRead_load _ o).wf h
  | store r m => exact (storeValue_spec _ _ m k s).stored.wf h
  | modify op m => exact (modifyMemory_spec _ m k s).stored.wf h
  | modifyA op => exact h
  | branch cond r => exact h
  | other => exact h

end Sys2Proof.Machine
end

