-- ==== Sys2Proof/Laws/PerInstr.lean ====
section
/-! SUPPORT. One lemma per instruction, about its encoding: the entry of its opcode byte has as many
operand bytes as the instruction's form and makes the instruction of them again. -/

namespace Sys2Proof.Laws.EncodedForm

open Sys2Proof Sys2Proof.Machine

/-- At every width at which the instruction is well-formed, the opcode's entry counts the operand bytes
of the encoding and rebuilds the instruction from them. -/
def Statement (i : Instr) : Prop :=
  ∀ m8 x8 : Bool, i.wf m8 x8 = true →
    (opcodeEntry i.opcode).operandCount m8 x8 = (i.encoded.2.bytes m8 x8).length ∧
    (opcodeEntry i.opcode).build (i.encoded.2.bytes m8 x8) = i

theorem of_none {i : Instr} {op : Byte} (he : i.encoded = (op, .none)) (ho : opcodeEntry op = .none i) :
    Statement i := by
  intro m8 x8 _
  simp only [Instr.opcode, he, ho]
  exact ⟨rfl, rfl⟩

theorem of_byte {i : Instr} {op b : Byte} {f : Byte → Instr} (he : i.encoded = (op, .byte b))
    (ho : opcodeEntry op = .byte f) (hi : f b = i) : Statement i := by
  intro m8 x8 _
  simp only [Instr.opcode, he, ho]
  exact ⟨rfl, hi⟩

theorem of_word {i : Instr} {op : Byte} {v : Word} {f : Word → Instr} (he : i.encoded = (op, .word v))
    (ho : opcodeEntry op = .word f) (hi : f v = i) : Statement i := by
  intro m8 x8 _
  simp only [Instr.opcode, he, ho]
  exact ⟨rfl, (congrArg f (joinBytes_highByte_lowByte v)).trans hi⟩

theorem of_long {i : Instr} {op : Byte} {a : Address} {f : Address → Instr} (he : i.encoded = (op, .long a))
    (ho : opcodeEntry op = .long f) (hi : f a = i) : Statement i := by
  intro m8 x8 _
  simp only [Instr.opcode, he, ho]
  refine ⟨rfl, (congrArg f ?_).trans hi⟩
  show mkAddress (bankOf a) (joinBytes (highByte (offsetOf a)) (lowByte (offsetOf a))) = a
  rw [joinBytes_highByte_lowByte]
  apply BitVec.eq_of_toNat_eq
  rw [mkAddress_toNat, bankOf_toNat, offsetOf_toNat]
  omega

theorem of_blk {i : Instr} {op dd ss : Byte} {f : Byte → Byte → Instr} (he : i.encoded = (op, .blk dd ss))
    (ho : opcodeEntry op = .blk f) (hi : f dd ss = i) : Statement i := by
  intro m8 x8 _
  simp only [Instr.opcode, he, ho]
  exact ⟨rfl, hi⟩

/-- An immediate that fits one byte is its low byte. -/
theorem joinBytes_zero_of_fits {v : Word} (h : immediateFits true v = true) : joinBytes 0 (lowByte v) = v := by
  have h : v.toNat < 256 := by simpa [immediateFits] using h
  have h0 : (0 : Byte).toNat = 0 := rfl
  apply BitVec.eq_of_toNat_eq
  rw [joinBytes_toNat, lowByte_toNat, h0]
  omega

theorem of_immM {i : Instr} {op : Byte} {v : Word} {f : Word → Instr} (he : i.encoded = (op, .immM v))
    (ho : opcodeEntry op = .immM f) (hi : f v = i) (hw : ∀ m8 x8, i.wf m8 x8 = immediateFits m8 v) :
    Statement i := by
  intro m8 x8 h
  rw [hw] at h
  simp only [Instr.opcode, he, ho]
  cases m8
  · exact ⟨rfl, (congrArg f (joinBytes_highByte_lowByte v)).trans hi⟩
  · exact ⟨rfl, (congrArg f (joinBytes_zero_of_fits h)).trans hi⟩

theorem of_immX {i : Instr} {op : Byte} {v : Word} {f : Word → Instr} (he : i.encoded = (op, .immX v))
    (ho : opcodeEntry op = .immX f) (hi : f v = i) (hw : ∀ m8 x8, i.wf m8 x8 = immediateFits x8 v) :
    Statement i := by
  intro m8 x8 h
  rw [hw] at h
  simp only [Instr.opcode, he, ho]
  cases x8
  · exact ⟨rfl, (congrArg f (joinBytes_highByte_lowByte v)).trans hi⟩
  · exact ⟨rfl, (congrArg f (joinBytes_zero_of_fits h)).trans hi⟩

theorem brk (sig : Byte) : Statement (.brk sig) := of_byte rfl rfl rfl
theorem oraIdpx (d : Byte) : Statement (.oraIdpx d) := of_byte rfl rfl rfl
theorem cop (sig : Byte) : Statement (.cop sig) := of_byte rfl rfl rfl
theorem oraSr (o : Byte) : Statement (.oraSr o) := of_byte rfl rfl rfl
theorem tsbDp (d : Byte) : Statement (.tsbDp d) := of_byte rfl rfl rfl
theorem oraDp (d : Byte) : Statement (.oraDp d) := of_byte rfl rfl rfl
theorem aslDp (d : Byte) : Statement (.aslDp d) := of_byte rfl rfl rfl
theorem oraIldp (d : Byte) : Statement (.oraIldp d) := of_byte rfl rfl rfl
theorem php : Statement .php := of_none rfl rfl
theorem oraImm (v : Word) : Statement (.oraImm v) := of_immM rfl rfl rfl fun _ _ => rfl
theorem aslAcc : Statement .aslAcc := of_none rfl rfl
theorem phd : Statement .phd := of_none rfl rfl
theorem tsbAbs (a : Word) : Statement (.tsbAbs a) := of_word rfl rfl rfl
theorem oraAbs (a : Word) : Statement (.oraAbs a) := of_word rfl rfl rfl
theorem aslAbs (a : Word) : Statement (.aslAbs a) := of_word rfl rfl rfl
theorem oraLong (a : Address) : Statement (.oraLong a) := of_long rfl rfl rfl
theorem bpl (r : Byte) : Statement (.bpl r) := of_byte rfl rfl rfl
theorem oraIdpy (d : Byte) : Statement (.oraIdpy d) := of_byte rfl rfl rfl
theorem oraIdp (d : Byte) : Statement (.oraIdp d) := of_byte rfl rfl rfl
theorem oraIsry (o : Byte) : Statement (.oraIsry o) := of_byte rfl rfl rfl
theorem trbDp (d : Byte) : Statement (.trbDp d) := of_byte rfl rfl rfl
theorem oraDpx (d : Byte) : Statement (.oraDpx d) := of_byte rfl rfl rfl
theorem aslDpx (d : Byte) : Statement (.aslDpx d) := of_byte rfl rfl rfl
theorem oraIldpy (d : Byte) : Statement (.oraIldpy d) := of_byte rfl rfl rfl
theorem clc : Statement .clc := of_none rfl rfl
theorem oraAbsy (a : Word) : Statement (.oraAbsy a) := of_word rfl rfl rfl
theorem incAcc : Statement .incAcc := of_none rfl rfl
theorem tcs : Statement .tcs := of_none rfl rfl
theorem trbAbs (a : Word) : Statement (.trbAbs a) := of_word rfl rfl rfl
theorem oraAbsx (a : Word) : Statement (.oraAbsx a) := of_word rfl rfl rfl
theorem aslAbsx (a : Word) : Statement (.aslAbsx a) := of_word rfl rfl rfl
theorem oraLongx (a : Address) : Statement (.oraLongx a) := of_long rfl rfl rfl
theorem jsrJabs (a : Word) : Statement (.jsrJabs a) := of_word rfl rfl rfl
theorem andIdpx (d : Byte) : Statement (.andIdpx d) := of_byte rfl rfl rfl
theorem jsl (a : Address) : Statement (.jsl a) := of_long rfl rfl rfl
theorem andSr (o : Byte) : Statement (.andSr o) := of_byte rfl rfl rfl
theorem bitDp (d : Byte) : Statement (.bitDp d) := of_byte rfl rfl rfl
theorem andDp (d : Byte) : Statement (.andDp d) := of_byte rfl rfl rfl
theorem rolDp (d : Byte) : Statement (.rolDp d) := of_byte rfl rfl rfl
theorem andIldp (d : Byte) : Statement (.andIldp d) := of_byte rfl rfl rfl
theorem plp : Statement .plp := of_none rfl rfl
theorem andImm (v : Word) : Statement (.andImm v) := of_immM rfl rfl rfl fun _ _ => rfl
theorem rolAcc : Statement .rolAcc := of_none rfl rfl
theorem pld : Statement .pld := of_none rfl rfl
theorem bitAbs (a : Word) : Statement (.bitAbs a) := of_word rfl rfl rfl
theorem andAbs (a : Word) : Statement (.andAbs a) := of_word rfl rfl rfl
theorem rolAbs (a : Word) : Statement (.rolAbs a) := of_word rfl rfl rfl
theorem andLong (a : Address) : Statement (.andLong a) := of_long rfl rfl rfl
theorem bmi (r : Byte) : Statement (.bmi r) := of_byte rfl rfl rfl
theorem andIdpy (d : Byte) : Statement (.andIdpy d) := of_byte rfl rfl rfl
theorem andIdp (d : Byte) : Statement (.andIdp d) := of_byte rfl rfl rfl
theorem andIsry (o : Byte) : Statement (.andIsry o) := of_byte rfl rfl rfl
theorem bitDpx (d : Byte) : Statement (.bitDpx d) := of_byte rfl rfl rfl
theorem andDpx (d : Byte) : Statement (.andDpx d) := of_byte rfl rfl rfl
theorem rolDpx (d : Byte) : Statement (.rolDpx d) := of_byte rfl rfl rfl
theorem andIldpy (d : Byte) : Statement (.andIldpy d) := of_byte rfl rfl rfl
theorem sec : Statement .sec := of_none rfl rfl
theorem andAbsy (a : Word) : Statement (.andAbsy a) := of_word rfl rfl rfl
theorem decAcc : Statement .decAcc := of_none rfl rfl
theorem tsc : Statement .tsc := of_none rfl rfl
theorem bitAbsx (a : Word) : Statement (.bitAbsx a) := of_word rfl rfl rfl
theorem andAbsx (a : Word) : Statement (.andAbsx a) := of_word rfl rfl rfl
theorem rolAbsx (a : Word) : Statement (.rolAbsx a) := of_word rfl rfl rfl
theorem andLongx (a : Address) : Statement (.andLongx a) := of_long rfl rfl rfl
theorem rti : Statement .rti := of_none rfl rfl
theorem eorIdpx (d : Byte) : Statement (.eorIdpx d) := of_byte rfl rfl rfl
theorem wdm (sig : Byte) : Statement (.wdm sig) := of_byte rfl rfl rfl
theorem eorSr (o : Byte) : Statement (.eorSr o) := of_byte rfl rfl rfl
theorem mvp (dd ss : Byte) : Statement (.mvp dd ss) := of_blk rfl rfl rfl
theorem eorDp (d : Byte) : Statement (.eorDp d) := of_byte rfl rfl rfl
theorem lsrDp (d : Byte) : Statement (.lsrDp d) := of_byte rfl rfl rfl
theorem eorIldp (d : Byte) : Statement (.eorIldp d) := of_byte rfl rfl rfl
theorem pha : Statement .pha := of_none rfl rfl
theorem eorImm (v : Word) : Statement (.eorImm v) := of_immM rfl rfl rfl fun _ _ => rfl
theorem lsrAcc : Statement .lsrAcc := of_none rfl rfl
theorem phk : Statement .phk := of_none rfl rfl
theorem jmpJabs (a : Word) : Statement (.jmpJabs a) := of_word rfl rfl rfl
theorem eorAbs (a : Word) : Statement (.eorAbs a) := of_word rfl rfl rfl
theorem lsrAbs (a : Word) : Statement (.lsrAbs a) := of_word rfl rfl rfl
theorem eorLong (a : Address) : Statement (.eorLong a) := of_long rfl rfl rfl
theorem bvc (r : Byte) : Statement (.bvc r) := of_byte rfl rfl rfl
theorem eorIdpy (d : Byte) : Statement (.eorIdpy d) := of_byte rfl rfl rfl
theorem eorIdp (d : Byte) : Statement (.eorIdp d) := of_byte rfl rfl rfl
theorem eorIsry (o : Byte) : Statement (.eorIsry o) := of_byte rfl rfl rfl
theorem mvn (dd ss : Byte) : Statement (.mvn dd ss) := of_blk rfl rfl rfl
theorem eorDpx (d : Byte) : Statement (.eorDpx d) := of_byte rfl rfl rfl
theorem lsrDpx (d : Byte) : Statement (.lsrDpx d) := of_byte rfl rfl rfl
theorem eorIldpy (d : Byte) : Statement (.eorIldpy d) := of_byte rfl rfl rfl
theorem cli : Statement .cli := of_none rfl rfl
theorem eorAbsy (a : Word) : Statement (.eorAbsy a) := of_word rfl rfl rfl
theorem phy : Statement .phy := of_none rfl rfl
theorem tcd : Statement .tcd := of_none rfl rfl
theorem jmlJlong (a : Address) : Statement (.jmlJlong a) := of_long rfl rfl rfl
theorem eorAbsx (a : Word) : Statement (.eorAbsx a) := of_word rfl rfl rfl
theorem lsrAbsx (a : Word) : Statement (.lsrAbsx a) := of_word rfl rfl rfl
theorem eorLongx (a : Address) : Statement (.eorLongx a) := of_long rfl rfl rfl
theorem rts : Statement .rts := of_none rfl rfl
theorem adcIdpx (d : Byte) : Statement (.adcIdpx d) := of_byte rfl rfl rfl
theorem per (r : Word) : Statement (.per r) := of_word rfl rfl rfl
theorem adcSr (o : Byte) : Statement (.adcSr o) := of_byte rfl rfl rfl
theorem stzDp (d : Byte) : Statement (.stzDp d) := of_byte rfl rfl rfl
theorem adcDp (d : Byte) : Statement (.adcDp d) := of_byte rfl rfl rfl
theorem rorDp (d : Byte) : Statement (.rorDp d) := of_byte rfl rfl rfl
theorem adcIldp (d : Byte) : Statement (.adcIldp d) := of_byte rfl rfl rfl
theorem pla : Statement .pla := of_none rfl rfl
theorem adcImm (v : Word) : Statement (.adcImm v) := of_immM rfl rfl rfl fun _ _ => rfl
theorem rorAcc : Statement .rorAcc := of_none rfl rfl
theorem rtl : Statement .rtl := of_none rfl rfl
theorem jmpIabs (a : Word) : Statement (.jmpIabs a) := of_word rfl rfl rfl
theorem adcAbs (a : Word) : Statement (.adcAbs a) := of_word rfl rfl rfl
theorem rorAbs (a : Word) : Statement (.rorAbs a) := of_word rfl rfl rfl
theorem adcLong (a : Address) : Statement (.adcLong a) := of_long rfl rfl rfl
theorem bvs (r : Byte) : Statement (.bvs r) := of_byte rfl rfl rfl
theorem adcIdpy (d : Byte) : Statement (.adcIdpy d) := of_byte rfl rfl rfl
theorem adcIdp (d : Byte) : Statement (.adcIdp d) := of_byte rfl rfl rfl
theorem adcIsry (o : Byte) : Statement (.adcIsry o) := of_byte rfl rfl rfl
theorem stzDpx (d : Byte) : Statement (.stzDpx d) := of_byte rfl rfl rfl
theorem adcDpx (d : Byte) : Statement (.adcDpx d) := of_byte rfl rfl rfl
theorem rorDpx (d : Byte) : Statement (.rorDpx d) := of_byte rfl rfl rfl
theorem adcIldpy (d : Byte) : Statement (.adcIldpy d) := of_byte rfl rfl rfl
theorem sei : Statement .sei := of_none rfl rfl
theorem adcAbsy (a : Word) : Statement (.adcAbsy a) := of_word rfl rfl rfl
theorem ply : Statement .ply := of_none rfl rfl
theorem tdc : Statement .tdc := of_none rfl rfl
theorem jmpIabsx (a : Word) : Statement (.jmpIabsx a) := of_word rfl rfl rfl
theorem adcAbsx (a : Word) : Statement (.adcAbsx a) := of_word rfl rfl rfl
theorem rorAbsx (a : Word) : Statement (.rorAbsx a) := of_word rfl rfl rfl
theorem adcLongx (a : Address) : Statement (.adcLongx a) := of_long rfl rfl rfl
theorem bra (r : Byte) : Statement (.bra r) := of_byte rfl rfl rfl
theorem staIdpx (d : Byte) : Statement (.staIdpx d) := of_byte rfl rfl rfl
theorem brl (r : Word) : Statement (.brl r) := of_word rfl rfl rfl
theorem staSr (o : Byte) : Statement (.staSr o) := of_byte rfl rfl rfl
theorem styDp (d : Byte) : Statement (.styDp d) := of_byte rfl rfl rfl
theorem staDp (d : Byte) : Statement (.staDp d) := of_byte rfl rfl rfl
theorem stxDp (d : Byte) : Statement (.stxDp d) := of_byte rfl rfl rfl
theorem staIldp (d : Byte) : Statement (.staIldp d) := of_byte rfl rfl rfl
theorem dey : Statement .dey := of_none rfl rfl
theorem bitImm (v : Word) : Statement (.bitImm v) := of_immM rfl rfl rfl fun _ _ => rfl
theorem txa : Statement .txa := of_none rfl rfl
theorem phb : Statement .phb := of_none rfl rfl
theorem styAbs (a : Word) : Statement (.styAbs a) := of_word rfl rfl rfl
theorem staAbs (a : Word) : Statement (.staAbs a) := of_word rfl rfl rfl
theorem stxAbs (a : Word) : Statement (.stxAbs a) := of_word rfl rfl rfl
theorem staLong (a : Address) : Statement (.staLong a) := of_long rfl rfl rfl
theorem bcc (r : Byte) : Statement (.bcc r) := of_byte rfl rfl rfl
theorem staIdpy (d : Byte) : Statement (.staIdpy d) := of_byte rfl rfl rfl
theorem staIdp (d : Byte) : Statement (.staIdp d) := of_byte rfl rfl rfl
theorem staIsry (o : Byte) : Statement (.staIsry o) := of_byte rfl rfl rfl
theorem styDpx (d : Byte) : Statement (.styDpx d) := of_byte rfl rfl rfl
theorem staDpx (d : Byte) : Statement (.staDpx d) := of_byte rfl rfl rfl
theorem stxDpy (d : Byte) : Statement (.stxDpy d) := of_byte rfl rfl rfl
theorem staIldpy (d : Byte) : Statement (.staIldpy d) := of_byte rfl rfl rfl
theorem tya : Statement .tya := of_none rfl rfl
theorem staAbsy (a : Word) : Statement (.staAbsy a) := of_word rfl rfl rfl
theorem txs : Statement .txs := of_none rfl rfl
theorem txy : Statement .txy := of_none rfl rfl
theorem stzAbs (a : Word) : Statement (.stzAbs a) := of_word rfl rfl rfl
theorem staAbsx (a : Word) : Statement (.staAbsx a) := of_word rfl rfl rfl
theorem stzAbsx (a : Word) : Statement (.stzAbsx a) := of_word rfl rfl rfl
theorem staLongx (a : Address) : Statement (.staLongx a) := of_long rfl rfl rfl
theorem ldyImm (v : Word) : Statement (.ldyImm v) := of_immX rfl rfl rfl fun _ _ => rfl
theorem ldaIdpx (d : Byte) : Statement (.ldaIdpx d) := of_byte rfl rfl rfl
theorem ldxImm (v : Word) : Statement (.ldxImm v) := of_immX rfl rfl rfl fun _ _ => rfl
theorem ldaSr (o : Byte) : Statement (.ldaSr o) := of_byte rfl rfl rfl
theorem ldyDp (d : Byte) : Statement (.ldyDp d) := of_byte rfl rfl rfl
theorem ldaDp (d : Byte) : Statement (.ldaDp d) := of_byte rfl rfl rfl
theorem ldxDp (d : Byte) : Statement (.ldxDp d) := of_byte rfl rfl rfl
theorem ldaIldp (d : Byte) : Statement (.ldaIldp d) := of_byte rfl rfl rfl
theorem tay : Statement .tay := of_none rfl rfl
theorem ldaImm (v : Word) : Statement (.ldaImm v) := of_immM rfl rfl rfl fun _ _ => rfl
theorem tax : Statement .tax := of_none rfl rfl
theorem plb : Statement .plb := of_none rfl rfl
theorem ldyAbs (a : Word) : Statement (.ldyAbs a) := of_word rfl rfl rfl
theorem ldaAbs (a : Word) : Statement (.ldaAbs a) := of_word rfl rfl rfl
theorem ldxAbs (a : Word) : Statement (.ldxAbs a) := of_word rfl rfl rfl
theorem ldaLong (a : Address) : Statement (.ldaLong a) := of_long rfl rfl rfl
theorem bcs (r : Byte) : Statement (.bcs r) := of_byte rfl rfl rfl
theorem ldaIdpy (d : Byte) : Statement (.ldaIdpy d) := of_byte rfl rfl rfl
theorem ldaIdp (d : Byte) : Statement (.ldaIdp d) := of_byte rfl rfl rfl
theorem ldaIsry (o : Byte) : Statement (.ldaIsry o) := of_byte rfl rfl rfl
theorem ldyDpx (d : Byte) : Statement (.ldyDpx d) := of_byte rfl rfl rfl
theorem ldaDpx (d : Byte) : Statement (.ldaDpx d) := of_byte rfl rfl rfl
theorem ldxDpy (d : Byte) : Statement (.ldxDpy d) := of_byte rfl rfl rfl
theorem ldaIldpy (d : Byte) : Statement (.ldaIldpy d) := of_byte rfl rfl rfl
theorem clv : Statement .clv := of_none rfl rfl
theorem ldaAbsy (a : Word) : Statement (.ldaAbsy a) := of_word rfl rfl rfl
theorem tsx : Statement .tsx := of_none rfl rfl
theorem tyx : Statement .tyx := of_none rfl rfl
theorem ldyAbsx (a : Word) : Statement (.ldyAbsx a) := of_word rfl rfl rfl
theorem ldaAbsx (a : Word) : Statement (.ldaAbsx a) := of_word rfl rfl rfl
theorem ldxAbsy (a : Word) : Statement (.ldxAbsy a) := of_word rfl rfl rfl
theorem ldaLongx (a : Address) : Statement (.ldaLongx a) := of_long rfl rfl rfl
theorem cpyImm (v : Word) : Statement (.cpyImm v) := of_immX rfl rfl rfl fun _ _ => rfl
theorem cmpIdpx (d : Byte) : Statement (.cmpIdpx d) := of_byte rfl rfl rfl
theorem rep (mask : Byte) : Statement (.rep mask) := of_byte rfl rfl rfl
theorem cmpSr (o : Byte) : Statement (.cmpSr o) := of_byte rfl rfl rfl
theorem cpyDp (d : Byte) : Statement (.cpyDp d) := of_byte rfl rfl rfl
theorem cmpDp (d : Byte) : Statement (.cmpDp d) := of_byte rfl rfl rfl
theorem decDp (d : Byte) : Statement (.decDp d) := of_byte rfl rfl rfl
theorem cmpIldp (d : Byte) : Statement (.cmpIldp d) := of_byte rfl rfl rfl
theorem iny : Statement .iny := of_none rfl rfl
theorem cmpImm (v : Word) : Statement (.cmpImm v) := of_immM rfl rfl rfl fun _ _ => rfl
theorem dex : Statement .dex := of_none rfl rfl
theorem wai : Statement .wai := of_none rfl rfl
theorem cpyAbs (a : Word) : Statement (.cpyAbs a) := of_word rfl rfl rfl
theorem cmpAbs (a : Word) : Statement (.cmpAbs a) := of_word rfl rfl rfl
theorem decAbs (a : Word) : Statement (.decAbs a) := of_word rfl rfl rfl
theorem cmpLong (a : Address) : Statement (.cmpLong a) := of_long rfl rfl rfl
theorem bne (r : Byte) : Statement (.bne r) := of_byte rfl rfl rfl
theorem cmpIdpy (d : Byte) : Statement (.cmpIdpy d) := of_byte rfl rfl rfl
theorem cmpIdp (d : Byte) : Statement (.cmpIdp d) := of_byte rfl rfl rfl
theorem cmpIsry (o : Byte) : Statement (.cmpIsry o) := of_byte rfl rfl rfl
theorem pei (d : Byte) : Statement (.pei d) := of_byte rfl rfl rfl
theorem cmpDpx (d : Byte) : Statement (.cmpDpx d) := of_byte rfl rfl rfl
theorem decDpx (d : Byte) : Statement (.decDpx d) := of_byte rfl rfl rfl
theorem cmpIldpy (d : Byte) : Statement (.cmpIldpy d) := of_byte rfl rfl rfl
theorem cld : Statement .cld := of_none rfl rfl
theorem cmpAbsy (a : Word) : Statement (.cmpAbsy a) := of_word rfl rfl rfl
theorem phx : Statement .phx := of_none rfl rfl
theorem stp : Statement .stp := of_none rfl rfl
theorem jmlIlabs (a : Word) : Statement (.jmlIlabs a) := of_word rfl rfl rfl
theorem cmpAbsx (a : Word) : Statement (.cmpAbsx a) := of_word rfl rfl rfl
theorem decAbsx (a : Word) : Statement (.decAbsx a) := of_word rfl rfl rfl
theorem cmpLongx (a : Address) : Statement (.cmpLongx a) := of_long rfl rfl rfl
theorem cpxImm (v : Word) : Statement (.cpxImm v) := of_immX rfl rfl rfl fun _ _ => rfl
theorem sbcIdpx (d : Byte) : Statement (.sbcIdpx d) := of_byte rfl rfl rfl
theorem sep (mask : Byte) : Statement (.sep mask) := of_byte rfl rfl rfl
theorem sbcSr (o : Byte) : Statement (.sbcSr o) := of_byte rfl rfl rfl
theorem cpxDp (d : Byte) : Statement (.cpxDp d) := of_byte rfl rfl rfl
theorem sbcDp (d : Byte) : Statement (.sbcDp d) := of_byte rfl rfl rfl
theorem incDp (d : Byte) : Statement (.incDp d) := of_byte rfl rfl rfl
theorem sbcIldp (d : Byte) : Statement (.sbcIldp d) := of_byte rfl rfl rfl
theorem inx : Statement .inx := of_none rfl rfl
theorem sbcImm (v : Word) : Statement (.sbcImm v) := of_immM rfl rfl rfl fun _ _ => rfl
theorem nop : Statement .nop := of_none rfl rfl
theorem xba : Statement .xba := of_none rfl rfl
theorem cpxAbs (a : Word) : Statement (.cpxAbs a) := of_word rfl rfl rfl
theorem sbcAbs (a : Word) : Statement (.sbcAbs a) := of_word rfl rfl rfl
theorem incAbs (a : Word) : Statement (.incAbs a) := of_word rfl rfl rfl
theorem sbcLong (a : Address) : Statement (.sbcLong a) := of_long rfl rfl rfl
theorem beq (r : Byte) : Statement (.beq r) := of_byte rfl rfl rfl
theorem sbcIdpy (d : Byte) : Statement (.sbcIdpy d) := of_byte rfl rfl rfl
theorem sbcIdp (d : Byte) : Statement (.sbcIdp d) := of_byte rfl rfl rfl
theorem sbcIsry (o : Byte) : Statement (.sbcIsry o) := of_byte rfl rfl rfl
theorem pea (v : Word) : Statement (.pea v) := of_word rfl rfl rfl
theorem sbcDpx (d : Byte) : Statement (.sbcDpx d) := of_byte rfl rfl rfl
theorem incDpx (d : Byte) : Statement (.incDpx d) := of_byte rfl rfl rfl
theorem sbcIldpy (d : Byte) : Statement (.sbcIldpy d) := of_byte rfl rfl rfl
theorem sed : Statement .sed := of_none rfl rfl
theorem sbcAbsy (a : Word) : Statement (.sbcAbsy a) := of_word rfl rfl rfl
theorem plx : Statement .plx := of_none rfl rfl
theorem xce : Statement .xce := of_none rfl rfl
theorem jsrIabsx (a : Word) : Statement (.jsrIabsx a) := of_word rfl rfl rfl
theorem sbcAbsx (a : Word) : Statement (.sbcAbsx a) := of_word rfl rfl rfl
theorem incAbsx (a : Word) : Statement (.incAbsx a) := of_word rfl rfl rfl
theorem sbcLongx (a : Address) : Statement (.sbcLongx a) := of_long rfl rfl rfl

end Sys2Proof.Laws.EncodedForm
end

