-- ==== Sys2Proof/Laws/Step.lean ====
section
/-! SUPPORT. The fetch reads and changes nothing the model can see, and a step of an executing core is the
meaning of what it fetched. -/

namespace Sys2Proof.Machine

theorem onlyRead_fetchBytes (bank : Byte) (o : Word) (n : Nat) (b : Bus) :
    b.OnlyRead (fetchBytes bank o n b).bus := by
  induction n generalizing o b with
  | zero => exact .refl _
  | succ n ih => exact (Bus.onlyRead_readByte _ _).trans (ih _ _)

theorem length_fetchBytes (bank : Byte) (o : Word) (n : Nat) (b : Bus) :
    (fetchBytes bank o n b).val.length = n := by
  induction n generalizing o b with
  | zero => rfl
  | succ n ih => simp [fetchBytes, ih]

/-- The address after an offset in a bank, stepped once more. -/
theorem add_one_add_ofNat (o : Word) (k : Nat) : o + 1 + BitVec.ofNat 16 k = o + BitVec.ofNat 16 (k + 1) := by
  rw [BitVec.add_assoc, BitVec.add_comm 1, show BitVec.ofNat 16 k + 1 = BitVec.ofNat 16 (k + 1) from by
    rw [BitVec.ofNat_add]; rfl]

/-- Operand bytes the model can read are what the fetch gives, and it changes nothing. -/
theorem fetchBytes_of_peek {bank : Byte} {o : Word} {bytes : List Byte} {b : Bus}
    (h : ∀ k v, bytes[k]? = some v → b.peek (mkAddress bank (o + BitVec.ofNat 16 k)) = some v) :
    fetchBytes bank o bytes.length b = { val := bytes, bus := b } := by
  induction bytes generalizing o with
  | nil => rfl
  | cons v rest ih =>
    have h0 := h 0 v (by simp)
    simp only [BitVec.add_zero] at h0
    have hr := ih (o := o + 1) fun k w hk => by
      rw [add_one_add_ofNat]; exact h (k + 1) w (by simpa using hk)
    simp only [List.length_cons, fetchBytes, Bus.readByte_of_peek h0, hr]

theorem State.onlyRead_fetch (s : State) : s.bus.OnlyRead s.fetch.st.bus :=
  (Bus.onlyRead_readByte _ _).trans (onlyRead_fetchBytes _ _ _ _)

theorem step_of_executing {s : State} (h : s.Executing) : step s = exec s.fetch.val s.fetch.st := by
  simp [step, h.1, h.2]

/-- A core that is held in reset, waiting or stopped stays as it is. -/
theorem step_of_not_executing {s : State} (h : ¬s.Executing) : step s = .next s := by
  unfold step
  split
  · rfl
  · rename_i hr
    rw [if_pos]
    exact fun e => h ⟨by simpa using hr, e⟩

end Sys2Proof.Machine
end

