-- ==== Sys2Proof/Laws/Sums.lean ====
section
/-! SUPPORT. The bitwise operators of the sum rules as arithmetic on integers, and one decimal digit of a
sum or a difference. -/

namespace Sys2Proof.Machine

/-! ### Bitwise operators on unbounded integers -/

/-- `r & (2^n - 1)` is the residue, of negative integers too. -/
theorem int_land_mask (r : Int) (n : Nat) : r.land (2 ^ n - 1) = r % 2 ^ n := by
  have h2 : ((2 : Int) ^ n - 1) = ((2 ^ n - 1 : Nat) : Int) := by
    rw [Nat.cast_sub Nat.one_le_two_pow]; simp
  rw [h2]
  cases r with
  | ofNat m =>
    show ((m &&& (2 ^ n - 1) : Nat) : Int) = _
    rw [Nat.and_two_pow_sub_one_eq_mod]; simp
  | negSucc m =>
    show ((Nat.ldiff (2 ^ n - 1) m : Nat) : Int) = _
    have hl : Nat.ldiff (2 ^ n - 1) m = 2 ^ n - (m % 2 ^ n + 1) := by
      apply Nat.eq_of_testBit_eq
      intro i
      rw [Nat.testBit_ldiff, Nat.testBit_two_pow_sub_one,
        Nat.testBit_two_pow_sub_succ (Nat.mod_lt _ (Nat.two_pow_pos n)), Nat.testBit_mod_two_pow]
      by_cases hi : i < n <;> simp [hi]
    rw [hl, Int.negSucc_emod _ (by positivity)]
    have := Nat.mod_lt m (Nat.two_pow_pos n)
    rw [Nat.cast_sub (by omega)]
    push_cast; ring

/-- A bit of an integer in two's complement. -/
theorem int_testBit (r : Int) (k : Nat) : r.testBit k = (r / 2 ^ k % 2 == 1) := by
  cases r with
  | ofNat m =>
    show m.testBit k = _
    rw [Nat.testBit_eq_decide_div_mod_eq]
    have : (Int.ofNat m / 2 ^ k % 2) = ((m / 2 ^ k % 2 : Nat) : Int) := by simp
    rw [this]
    generalize m / 2 ^ k = q
    rw [Bool.eq_iff_iff, decide_eq_true_iff, beq_iff_eq]; omega
  | negSucc m =>
    show (!m.testBit k) = _
    rw [Nat.testBit_eq_decide_div_mod_eq]
    have : (Int.negSucc m / 2 ^ k) = -((m / 2 ^ k : Nat) : Int) - 1 := by
      rw [Int.negSucc_ediv _ (by positivity)]
      have : ((m : Int).ediv (2 ^ k)) = ((m / 2 ^ k : Nat) : Int) := by push_cast; rfl
      rw [this]; ring
    rw [this]
    generalize m / 2 ^ k = q
    rw [Bool.eq_iff_iff, Bool.not_eq_true', decide_eq_false_iff_not, beq_iff_eq]; omega

theorem ruleOverflow_eq (w : Width) (a b : Word) (r : Int) :
    ruleOverflow w.bits a.toNat b.toNat r = signedOverflow w a b r := by
  have hn (v : Word) (k : Nat) : ((v.toNat : Int)).testBit k = v.toNat.testBit k := rfl
  unfold ruleOverflow signedOverflow intMsb
  rw [Int.testBit_land, Int.testBit_lnot, Int.testBit_lxor, Int.testBit_lxor, hn, hn, Width.msb_eq,
    Width.msb_eq, int_testBit r]
  cases a.toNat.testBit (w.bits - 1) <;> cases b.toNat.testBit (w.bits - 1) <;>
    cases (r / 2 ^ (w.bits - 1) % 2 == 1) <;> rfl

/-- A decimal digit in its place. -/
theorem int_land_digit (v j : Nat) : ((v : Int)).land (0xF * 16 ^ j) = (digitInPlace v j : Int) := by
  have h : ((0xF : Int) * 16 ^ j) = ((15 * 16 ^ j : Nat) : Int) := by push_cast; rfl
  rw [h]
  show ((v &&& (15 * 16 ^ j) : Nat) : Int) = _
  congr 1
  unfold digitInPlace
  have e16 : (16 : Nat) ^ j = 2 ^ (4 * j) := by rw [pow_mul]; rfl
  rw [e16]
  apply Nat.eq_of_testBit_eq
  intro i
  rw [Nat.testBit_and, Nat.testBit_mul_two_pow, Nat.testBit_mul_two_pow, show (16 : Nat) = 2 ^ 4 from rfl,
    Nat.testBit_mod_two_pow, Nat.testBit_div_two_pow, show (15 : Nat) = 2 ^ 4 - 1 from rfl,
    Nat.testBit_two_pow_sub_one]
  by_cases hi : 4 * j ≤ i
  · simp only [hi, Nat.sub_add_cancel, decide_true, Bool.true_and]; rw [Bool.and_comm]
  · simp [hi]

theorem ruleDigit_eq (a b j : Nat) (r : Int) : ruleDigit a b r j = digitSum a b r j := by
  have e16 : (16 : Int) ^ j = 2 ^ (4 * j) := by rw [pow_mul]; rfl
  have : r.land (16 ^ j - 1) = r % 16 ^ j := by rw [e16, int_land_mask]
  unfold ruleDigit digitSum
  simp only [int_land_digit, this]

/-! ### One decimal digit -/

theorem decimalValue_eq (v : Word) : decimalValue v =
    v.toNat % 16 + v.toNat / 16 % 16 * 10 + v.toNat / 256 % 16 * 100 + v.toNat / 4096 % 16 * 1000 := by
  simp [decimalValue, decimalDigits, List.zipIdx]; ring

theorem isDecimal_iff (v : Word) : isDecimal v ↔ v.toNat % 16 < 10 ∧ v.toNat / 16 % 16 < 10 ∧
    v.toNat / 256 % 16 < 10 ∧ v.toNat / 4096 % 16 < 10 := by
  simp [isDecimal, decimalDigits]

theorem digitInPlace_eq (v j : Nat) : (digitInPlace v j : Int) = 16 ^ j * (v / 16 ^ j % 16 : Nat) := by
  unfold digitInPlace; push_cast; ring

/-- A digit `o` and a carry `c` that make `s`. -/
structure DecimalDigit (s o c : Int) : Prop where
  sum : o + 10 * c = s
  nonneg : 0 ≤ o
  lt : o < 10
  carry_nonneg : 0 ≤ c
  carry_le : c ≤ 1

/-- ADC's correction of the digit at place `P`, where the digits and the carry into it make `s`. -/
theorem adc_digit {s P low : Int} (hP : P = 1 ∨ P = 16 ∨ P = 256 ∨ P = 4096) (h0 : 0 ≤ s) (hs : s ≤ 19)
    (hl : 0 ≤ low) (hl' : low < P) :
    let r := if P * s + low > 10 * P - 1 then P * s + low + 6 * P else P * s + low
    ∃ o c : Int, DecimalDigit s o c ∧ (if r > 16 * P - 1 then (1 : Int) else 0) = c ∧
      r % (16 * P) = P * o + low := by
  by_cases h : s < 10
  · refine ⟨s, 0, ⟨by omega, by omega, by omega, by omega, by omega⟩, ?_⟩
    rcases hP with rfl | rfl | rfl | rfl <;> (rw [if_neg (by omega), if_neg (by omega)]; omega)
  · refine ⟨s - 10, 1, ⟨by omega, by omega, by omega, by omega, by omega⟩, ?_⟩
    rcases hP with rfl | rfl | rfl | rfl <;> (rw [if_pos (by omega), if_pos (by omega)]; omega)

/-- SBC's correction of the digit at place `P`: the digit and the carry into it, with the complement of the
operand's digit to 15, make `s`; no carry out is a borrow. -/
theorem sbc_digit {s P low : Int} (hP : P = 1 ∨ P = 16 ∨ P = 256 ∨ P = 4096) (h0 : 6 ≤ s) (hs : s ≤ 25)
    (hl : 0 ≤ low) (hl' : low < P) :
    let r := if P * s + low ≤ 16 * P - 1 then P * s + low - 6 * P else P * s + low
    ∃ o c : Int, DecimalDigit (s - 6) o c ∧ (if r > 16 * P - 1 then (1 : Int) else 0) = c ∧
      r % (16 * P) = P * o + low := by
  intro r
  by_cases h : s < 16
  · have hc : P * s + low ≤ 16 * P - 1 := by rcases hP with rfl | rfl | rfl | rfl <;> omega
    rw [show r = P * s + low - 6 * P from if_pos hc]
    refine ⟨s - 6, 0, ⟨by omega, by omega, by omega, by omega, by omega⟩, ?_⟩
    rcases hP with rfl | rfl | rfl | rfl <;> (rw [if_neg (by omega)]; omega)
  · have hc : ¬P * s + low ≤ 16 * P - 1 := by rcases hP with rfl | rfl | rfl | rfl <;> omega
    rw [show r = P * s + low from if_neg hc]
    refine ⟨s - 16, 1, ⟨by omega, by omega, by omega, by omega, by omega⟩, ?_⟩
    rcases hP with rfl | rfl | rfl | rfl <;> (rw [if_pos (by omega)]; omega)

end Sys2Proof.Machine
end

