-- ==== Sys2Proof/Tests/Slice0.lean ====
section
/-! SUPPORT. The model's own tests. The words of the decode tests are written out from the layouts of
30_encoding.md R121 and the map of R130; every other expected result is a vector of
95_test_vectors.md, whose id ends the test's name, or a worked example of the rule named. After them
stand the witnesses: states and operands that meet the hypotheses of the obligations. -/

namespace Sys2Proof.Tests

open Sys2Proof Sys2Proof.Machine

/-! ### Helpers -/

/-- One RAM device over the whole bus space, with these bytes (95_test_vectors.md section 2.0). -/
def ramWith (cells : List Host.Cell) : Bus := { devices := [.ram 0x000000 0xFFFFFF (Memory.ofCells cells)] }

/-- The bytes of a word at an address, its offset wrapping within the bank. -/
def wordAt (a : Nat) (word : List Byte) : List Host.Cell :=
  word.zipIdx.map fun b => (a / 0x10000 * 0x10000 + (a + b.2) % 0x10000, b.1)

/-- The start state V0 at an address with a word there and other bytes loaded (section 2.0). -/
def v0 (a : Nat) (word : List Byte) (data : List Host.Cell) : State :=
  { State.reset with
    pbr := BitVec.ofNat 8 (a / 0x10000)
    pc := BitVec.ofNat 16 a
    bus := ramWith (wordAt a word ++ data) }

/-- One step answers a next state with a property. -/
def reaches (s : State) (p : State → Bool) : Bool :=
  match step s with
  | .next t    => p t
  | .fault _   => false
  | .refused _ => false

/-- One step from V0, changed by `start`, with a word at an address and other bytes loaded, changes the
fields that `finish` gives and stores the bytes `writes`, and nothing else. -/
def runs (a : Nat) (word : List Byte) (data : List Host.Cell) (start finish : State → State)
    (writes : List Host.Cell) : Bool :=
  let s := start (v0 a word data)
  reaches s fun t => t == { finish s with bus := ramWith (wordAt a word ++ data ++ writes) }

/-- Each word decodes to its instruction at these widths, with no byte left. -/
def decodesAll (m8 x8 : Bool) (words : List (List Byte × Instr)) : Bool :=
  words.all fun w =>
    match decode m8 x8 w.1 with
    | .ok (i, []) => i == w.2
    | _           => false

/-- `decodesAll` at the narrow widths. -/
def allDecode (words : List (List Byte × Instr)) : Bool := decodesAll true true words

/-- `decodesAll` at the wide widths. -/
def wideDecode (words : List (List Byte × Instr)) : Bool := decodesAll false false words

/-! ### Decoding: every constructor, by a word written out from 30_encoding.md R121 and R130 -/

theorem test_decode_row_0 : allDecode
    [([0x00, 0x81], .brk 0x81), ([0x01, 0x81], .oraIdpx 0x81), ([0x02, 0x81], .cop 0x81),
    ([0x03, 0x81], .oraSr 0x81), ([0x04, 0x81], .tsbDp 0x81), ([0x05, 0x81], .oraDp 0x81),
    ([0x06, 0x81], .aslDp 0x81), ([0x07, 0x81], .oraIldp 0x81), ([0x08], .php),
    ([0x09, 0xA5], .oraImm 0x00A5), ([0x0A], .aslAcc), ([0x0B], .phd), ([0x0C, 0x34, 0x12], .tsbAbs 0x1234),
    ([0x0D, 0x34, 0x12], .oraAbs 0x1234), ([0x0E, 0x34, 0x12], .aslAbs 0x1234),
    ([0x0F, 0x56, 0x34, 0x12], .oraLong 0x123456)] := by
  decide

theorem test_decode_row_1 : allDecode
    [([0x10, 0x81], .bpl 0x81), ([0x11, 0x81], .oraIdpy 0x81), ([0x12, 0x81], .oraIdp 0x81),
    ([0x13, 0x81], .oraIsry 0x81), ([0x14, 0x81], .trbDp 0x81), ([0x15, 0x81], .oraDpx 0x81),
    ([0x16, 0x81], .aslDpx 0x81), ([0x17, 0x81], .oraIldpy 0x81), ([0x18], .clc),
    ([0x19, 0x34, 0x12], .oraAbsy 0x1234), ([0x1A], .incAcc), ([0x1B], .tcs),
    ([0x1C, 0x34, 0x12], .trbAbs 0x1234), ([0x1D, 0x34, 0x12], .oraAbsx 0x1234),
    ([0x1E, 0x34, 0x12], .aslAbsx 0x1234), ([0x1F, 0x56, 0x34, 0x12], .oraLongx 0x123456)] := by
  decide

theorem test_decode_row_2 : allDecode
    [([0x20, 0x34, 0x12], .jsrJabs 0x1234), ([0x21, 0x81], .andIdpx 0x81),
    ([0x22, 0x56, 0x34, 0x12], .jsl 0x123456), ([0x23, 0x81], .andSr 0x81), ([0x24, 0x81], .bitDp 0x81),
    ([0x25, 0x81], .andDp 0x81), ([0x26, 0x81], .rolDp 0x81), ([0x27, 0x81], .andIldp 0x81), ([0x28], .plp),
    ([0x29, 0xA5], .andImm 0x00A5), ([0x2A], .rolAcc), ([0x2B], .pld), ([0x2C, 0x34, 0x12], .bitAbs 0x1234),
    ([0x2D, 0x34, 0x12], .andAbs 0x1234), ([0x2E, 0x34, 0x12], .rolAbs 0x1234),
    ([0x2F, 0x56, 0x34, 0x12], .andLong 0x123456)] := by
  decide

theorem test_decode_row_3 : allDecode
    [([0x30, 0x81], .bmi 0x81), ([0x31, 0x81], .andIdpy 0x81), ([0x32, 0x81], .andIdp 0x81),
    ([0x33, 0x81], .andIsry 0x81), ([0x34, 0x81], .bitDpx 0x81), ([0x35, 0x81], .andDpx 0x81),
    ([0x36, 0x81], .rolDpx 0x81), ([0x37, 0x81], .andIldpy 0x81), ([0x38], .sec),
    ([0x39, 0x34, 0x12], .andAbsy 0x1234), ([0x3A], .decAcc), ([0x3B], .tsc),
    ([0x3C, 0x34, 0x12], .bitAbsx 0x1234), ([0x3D, 0x34, 0x12], .andAbsx 0x1234),
    ([0x3E, 0x34, 0x12], .rolAbsx 0x1234), ([0x3F, 0x56, 0x34, 0x12], .andLongx 0x123456)] := by
  decide

theorem test_decode_row_4 : allDecode
    [([0x40], .rti), ([0x41, 0x81], .eorIdpx 0x81), ([0x42, 0x81], .wdm 0x81), ([0x43, 0x81], .eorSr 0x81),
    ([0x44, 0x7E, 0x7F], .mvp 0x7E 0x7F), ([0x45, 0x81], .eorDp 0x81), ([0x46, 0x81], .lsrDp 0x81),
    ([0x47, 0x81], .eorIldp 0x81), ([0x48], .pha), ([0x49, 0xA5], .eorImm 0x00A5), ([0x4A], .lsrAcc),
    ([0x4B], .phk), ([0x4C, 0x34, 0x12], .jmpJabs 0x1234), ([0x4D, 0x34, 0x12], .eorAbs 0x1234),
    ([0x4E, 0x34, 0x12], .lsrAbs 0x1234), ([0x4F, 0x56, 0x34, 0x12], .eorLong 0x123456)] := by
  decide

theorem test_decode_row_5 : allDecode
    [([0x50, 0x81], .bvc 0x81), ([0x51, 0x81], .eorIdpy 0x81), ([0x52, 0x81], .eorIdp 0x81),
    ([0x53, 0x81], .eorIsry 0x81), ([0x54, 0x7E, 0x7F], .mvn 0x7E 0x7F), ([0x55, 0x81], .eorDpx 0x81),
    ([0x56, 0x81], .lsrDpx 0x81), ([0x57, 0x81], .eorIldpy 0x81), ([0x58], .cli),
    ([0x59, 0x34, 0x12], .eorAbsy 0x1234), ([0x5A], .phy), ([0x5B], .tcd),
    ([0x5C, 0x56, 0x34, 0x12], .jmlJlong 0x123456), ([0x5D, 0x34, 0x12], .eorAbsx 0x1234),
    ([0x5E, 0x34, 0x12], .lsrAbsx 0x1234), ([0x5F, 0x56, 0x34, 0x12], .eorLongx 0x123456)] := by
  decide

theorem test_decode_row_6 : allDecode
    [([0x60], .rts), ([0x61, 0x81], .adcIdpx 0x81), ([0x62, 0x34, 0x12], .per 0x1234),
    ([0x63, 0x81], .adcSr 0x81), ([0x64, 0x81], .stzDp 0x81), ([0x65, 0x81], .adcDp 0x81),
    ([0x66, 0x81], .rorDp 0x81), ([0x67, 0x81], .adcIldp 0x81), ([0x68], .pla),
    ([0x69, 0xA5], .adcImm 0x00A5), ([0x6A], .rorAcc), ([0x6B], .rtl),
    ([0x6C, 0x34, 0x12], .jmpIabs 0x1234), ([0x6D, 0x34, 0x12], .adcAbs 0x1234),
    ([0x6E, 0x34, 0x12], .rorAbs 0x1234), ([0x6F, 0x56, 0x34, 0x12], .adcLong 0x123456)] := by
  decide

theorem test_decode_row_7 : allDecode
    [([0x70, 0x81], .bvs 0x81), ([0x71, 0x81], .adcIdpy 0x81), ([0x72, 0x81], .adcIdp 0x81),
    ([0x73, 0x81], .adcIsry 0x81), ([0x74, 0x81], .stzDpx 0x81), ([0x75, 0x81], .adcDpx 0x81),
    ([0x76, 0x81], .rorDpx 0x81), ([0x77, 0x81], .adcIldpy 0x81), ([0x78], .sei),
    ([0x79, 0x34, 0x12], .adcAbsy 0x1234), ([0x7A], .ply), ([0x7B], .tdc),
    ([0x7C, 0x34, 0x12], .jmpIabsx 0x1234), ([0x7D, 0x34, 0x12], .adcAbsx 0x1234),
    ([0x7E, 0x34, 0x12], .rorAbsx 0x1234), ([0x7F, 0x56, 0x34, 0x12], .adcLongx 0x123456)] := by
  decide

theorem test_decode_row_8 : allDecode
    [([0x80, 0x81], .bra 0x81), ([0x81, 0x81], .staIdpx 0x81), ([0x82, 0x34, 0x12], .brl 0x1234),
    ([0x83, 0x81], .staSr 0x81), ([0x84, 0x81], .styDp 0x81), ([0x85, 0x81], .staDp 0x81),
    ([0x86, 0x81], .stxDp 0x81), ([0x87, 0x81], .staIldp 0x81), ([0x88], .dey),
    ([0x89, 0xA5], .bitImm 0x00A5), ([0x8A], .txa), ([0x8B], .phb), ([0x8C, 0x34, 0x12], .styAbs 0x1234),
    ([0x8D, 0x34, 0x12], .staAbs 0x1234), ([0x8E, 0x34, 0x12], .stxAbs 0x1234),
    ([0x8F, 0x56, 0x34, 0x12], .staLong 0x123456)] := by
  decide

theorem test_decode_row_9 : allDecode
    [([0x90, 0x81], .bcc 0x81), ([0x91, 0x81], .staIdpy 0x81), ([0x92, 0x81], .staIdp 0x81),
    ([0x93, 0x81], .staIsry 0x81), ([0x94, 0x81], .styDpx 0x81), ([0x95, 0x81], .staDpx 0x81),
    ([0x96, 0x81], .stxDpy 0x81), ([0x97, 0x81], .staIldpy 0x81), ([0x98], .tya),
    ([0x99, 0x34, 0x12], .staAbsy 0x1234), ([0x9A], .txs), ([0x9B], .txy),
    ([0x9C, 0x34, 0x12], .stzAbs 0x1234), ([0x9D, 0x34, 0x12], .staAbsx 0x1234),
    ([0x9E, 0x34, 0x12], .stzAbsx 0x1234), ([0x9F, 0x56, 0x34, 0x12], .staLongx 0x123456)] := by
  decide

theorem test_decode_row_A : allDecode
    [([0xA0, 0xA5], .ldyImm 0x00A5), ([0xA1, 0x81], .ldaIdpx 0x81), ([0xA2, 0xA5], .ldxImm 0x00A5),
    ([0xA3, 0x81], .ldaSr 0x81), ([0xA4, 0x81], .ldyDp 0x81), ([0xA5, 0x81], .ldaDp 0x81),
    ([0xA6, 0x81], .ldxDp 0x81), ([0xA7, 0x81], .ldaIldp 0x81), ([0xA8], .tay),
    ([0xA9, 0xA5], .ldaImm 0x00A5), ([0xAA], .tax), ([0xAB], .plb), ([0xAC, 0x34, 0x12], .ldyAbs 0x1234),
    ([0xAD, 0x34, 0x12], .ldaAbs 0x1234), ([0xAE, 0x34, 0x12], .ldxAbs 0x1234),
    ([0xAF, 0x56, 0x34, 0x12], .ldaLong 0x123456)] := by
  decide

theorem test_decode_row_B : allDecode
    [([0xB0, 0x81], .bcs 0x81), ([0xB1, 0x81], .ldaIdpy 0x81), ([0xB2, 0x81], .ldaIdp 0x81),
    ([0xB3, 0x81], .ldaIsry 0x81), ([0xB4, 0x81], .ldyDpx 0x81), ([0xB5, 0x81], .ldaDpx 0x81),
    ([0xB6, 0x81], .ldxDpy 0x81), ([0xB7, 0x81], .ldaIldpy 0x81), ([0xB8], .clv),
    ([0xB9, 0x34, 0x12], .ldaAbsy 0x1234), ([0xBA], .tsx), ([0xBB], .tyx),
    ([0xBC, 0x34, 0x12], .ldyAbsx 0x1234), ([0xBD, 0x34, 0x12], .ldaAbsx 0x1234),
    ([0xBE, 0x34, 0x12], .ldxAbsy 0x1234), ([0xBF, 0x56, 0x34, 0x12], .ldaLongx 0x123456)] := by
  decide

theorem test_decode_row_C : allDecode
    [([0xC0, 0xA5], .cpyImm 0x00A5), ([0xC1, 0x81], .cmpIdpx 0x81), ([0xC2, 0x81], .rep 0x81),
    ([0xC3, 0x81], .cmpSr 0x81), ([0xC4, 0x81], .cpyDp 0x81), ([0xC5, 0x81], .cmpDp 0x81),
    ([0xC6, 0x81], .decDp 0x81), ([0xC7, 0x81], .cmpIldp 0x81), ([0xC8], .iny),
    ([0xC9, 0xA5], .cmpImm 0x00A5), ([0xCA], .dex), ([0xCB], .wai), ([0xCC, 0x34, 0x12], .cpyAbs 0x1234),
    ([0xCD, 0x34, 0x12], .cmpAbs 0x1234), ([0xCE, 0x34, 0x12], .decAbs 0x1234),
    ([0xCF, 0x56, 0x34, 0x12], .cmpLong 0x123456)] := by
  decide

theorem test_decode_row_D : allDecode
    [([0xD0, 0x81], .bne 0x81), ([0xD1, 0x81], .cmpIdpy 0x81), ([0xD2, 0x81], .cmpIdp 0x81),
    ([0xD3, 0x81], .cmpIsry 0x81), ([0xD4, 0x81], .pei 0x81), ([0xD5, 0x81], .cmpDpx 0x81),
    ([0xD6, 0x81], .decDpx 0x81), ([0xD7, 0x81], .cmpIldpy 0x81), ([0xD8], .cld),
    ([0xD9, 0x34, 0x12], .cmpAbsy 0x1234), ([0xDA], .phx), ([0xDB], .stp),
    ([0xDC, 0x34, 0x12], .jmlIlabs 0x1234), ([0xDD, 0x34, 0x12], .cmpAbsx 0x1234),
    ([0xDE, 0x34, 0x12], .decAbsx 0x1234), ([0xDF, 0x56, 0x34, 0x12], .cmpLongx 0x123456)] := by
  decide

theorem test_decode_row_E : allDecode
    [([0xE0, 0xA5], .cpxImm 0x00A5), ([0xE1, 0x81], .sbcIdpx 0x81), ([0xE2, 0x81], .sep 0x81),
    ([0xE3, 0x81], .sbcSr 0x81), ([0xE4, 0x81], .cpxDp 0x81), ([0xE5, 0x81], .sbcDp 0x81),
    ([0xE6, 0x81], .incDp 0x81), ([0xE7, 0x81], .sbcIldp 0x81), ([0xE8], .inx),
    ([0xE9, 0xA5], .sbcImm 0x00A5), ([0xEA], .nop), ([0xEB], .xba), ([0xEC, 0x34, 0x12], .cpxAbs 0x1234),
    ([0xED, 0x34, 0x12], .sbcAbs 0x1234), ([0xEE, 0x34, 0x12], .incAbs 0x1234),
    ([0xEF, 0x56, 0x34, 0x12], .sbcLong 0x123456)] := by
  decide

theorem test_decode_row_F : allDecode
    [([0xF0, 0x81], .beq 0x81), ([0xF1, 0x81], .sbcIdpy 0x81), ([0xF2, 0x81], .sbcIdp 0x81),
    ([0xF3, 0x81], .sbcIsry 0x81), ([0xF4, 0x34, 0x12], .pea 0x1234), ([0xF5, 0x81], .sbcDpx 0x81),
    ([0xF6, 0x81], .incDpx 0x81), ([0xF7, 0x81], .sbcIldpy 0x81), ([0xF8], .sed),
    ([0xF9, 0x34, 0x12], .sbcAbsy 0x1234), ([0xFA], .plx), ([0xFB], .xce),
    ([0xFC, 0x34, 0x12], .jsrIabsx 0x1234), ([0xFD, 0x34, 0x12], .sbcAbsx 0x1234),
    ([0xFE, 0x34, 0x12], .incAbsx 0x1234), ([0xFF, 0x56, 0x34, 0x12], .sbcLongx 0x123456)] := by
  decide

/-- The 12 immediate opcodes at width 16 (R124). -/
theorem test_decode_wide_immediates :
    wideDecode
    [([0x09, 0x34, 0x12], .oraImm 0x1234), ([0x29, 0x34, 0x12], .andImm 0x1234),
     ([0x49, 0x34, 0x12], .eorImm 0x1234), ([0x69, 0x34, 0x12], .adcImm 0x1234),
     ([0x89, 0x34, 0x12], .bitImm 0x1234), ([0xA0, 0x34, 0x12], .ldyImm 0x1234),
     ([0xA2, 0x34, 0x12], .ldxImm 0x1234), ([0xA9, 0x34, 0x12], .ldaImm 0x1234),
     ([0xC0, 0x34, 0x12], .cpyImm 0x1234), ([0xC9, 0x34, 0x12], .cmpImm 0x1234),
     ([0xE0, 0x34, 0x12], .cpxImm 0x1234), ([0xE9, 0x34, 0x12], .sbcImm 0x1234)] := by
  decide

/-! ### Well-formedness: for each check an ill-formed term, which the check refuses -/

theorem test_wf_oraImm : (Instr.oraImm 0x100).wf true false = false ∧
    (Instr.oraImm 0xFF).wf true false = true ∧ (Instr.oraImm 0xFFFF).wf false true = true := by decide

theorem test_wf_andImm : (Instr.andImm 0x100).wf true false = false ∧
    (Instr.andImm 0xFF).wf true false = true ∧ (Instr.andImm 0xFFFF).wf false true = true := by decide

theorem test_wf_eorImm : (Instr.eorImm 0x100).wf true false = false ∧
    (Instr.eorImm 0xFF).wf true false = true ∧ (Instr.eorImm 0xFFFF).wf false true = true := by decide

theorem test_wf_adcImm : (Instr.adcImm 0x100).wf true false = false ∧
    (Instr.adcImm 0xFF).wf true false = true ∧ (Instr.adcImm 0xFFFF).wf false true = true := by decide

theorem test_wf_bitImm : (Instr.bitImm 0x100).wf true false = false ∧
    (Instr.bitImm 0xFF).wf true false = true ∧ (Instr.bitImm 0xFFFF).wf false true = true := by decide

theorem test_wf_ldyImm : (Instr.ldyImm 0x100).wf false true = false ∧
    (Instr.ldyImm 0xFF).wf false true = true ∧ (Instr.ldyImm 0xFFFF).wf true false = true := by decide

theorem test_wf_ldxImm : (Instr.ldxImm 0x100).wf false true = false ∧
    (Instr.ldxImm 0xFF).wf false true = true ∧ (Instr.ldxImm 0xFFFF).wf true false = true := by decide

theorem test_wf_ldaImm : (Instr.ldaImm 0x100).wf true false = false ∧
    (Instr.ldaImm 0xFF).wf true false = true ∧ (Instr.ldaImm 0xFFFF).wf false true = true := by decide

theorem test_wf_cpyImm : (Instr.cpyImm 0x100).wf false true = false ∧
    (Instr.cpyImm 0xFF).wf false true = true ∧ (Instr.cpyImm 0xFFFF).wf true false = true := by decide

theorem test_wf_cmpImm : (Instr.cmpImm 0x100).wf true false = false ∧
    (Instr.cmpImm 0xFF).wf true false = true ∧ (Instr.cmpImm 0xFFFF).wf false true = true := by decide

theorem test_wf_cpxImm : (Instr.cpxImm 0x100).wf false true = false ∧
    (Instr.cpxImm 0xFF).wf false true = true ∧ (Instr.cpxImm 0xFFFF).wf true false = true := by decide

theorem test_wf_sbcImm : (Instr.sbcImm 0x100).wf true false = false ∧
    (Instr.sbcImm 0xFF).wf true false = true ∧ (Instr.sbcImm 0xFFFF).wf false true = true := by decide

/-! ### One step: 2.2 Encoding and length decode (30_encoding.md) -/

theorem test_lda_30L1 :
    runs 0x008000 [0xA9, 0x34, 0x12] []
      id
      (fun s => { s with c := 0x0034, pc := 0x8002, cycles := 2 }) [] := by
  decide

theorem test_ldx_30L3 :
    runs 0x008000 [0xA2, 0x34, 0x12] []
      (fun s => { s with e := false, p := 0x10 })
      (fun s => { s with x := 0x0034, pc := 0x8002, cycles := 2 }) [] := by
  decide

theorem test_ldy_30L4 :
    runs 0x008000 [0xA0, 0x34, 0x12] []
      (fun s => { s with e := false, p := 0x20 })
      (fun s => { s with y := 0x1234, pc := 0x8003, cycles := 3 }) [] := by
  decide

theorem test_lda_30L6 :
    runs 0x008000 [0xAF, 0x56, 0x34, 0x12] [(0x123456, 0x77)]
      id
      (fun s => { s with c := 0x0077, pc := 0x8004, cycles := 5 }) [] := by
  decide

theorem test_bra_30L7 :
    runs 0x008000 [0x80, 0x80] []
      id
      (fun s => { s with pc := 0x7F82, cycles := 4 }) [] := by
  decide

/-! ### One step: 2.3 Core loop and host interface (40_core_loop.md) -/

theorem test_lda_40K7 :
    runs 0x008000 [0xB5, 0x10] [(0x00000F, 0x66), (0x00010F, 0x99), (0x00130F, 0xAA)]
      (fun s => { s with x := 0x12FF })
      (fun s => { s with c := 0x0066, pc := 0x8002, cycles := 4 }) [] := by
  decide

/-! ### One step: 2.4 Addressing modes (41_addressing.md) -/

theorem test_lda_41A1 :
    runs 0x008000 [0xA5, 0x10] [(0x000010, 0x42)]
      id
      (fun s => { s with c := 0x0042, pc := 0x8002, cycles := 3 }) [] := by
  decide

theorem test_lda_41A5 :
    runs 0x008000 [0xB2, 0xFF]
      [(0x0000FF, 0x00), (0x000000, 0x30), (0x000100, 0x40), (0x003000, 0x11), (0x004000, 0x22)]
      (fun s => { s with dbr := 0x00 })
      (fun s => { s with c := 0x0011, pc := 0x8002, cycles := 5 }) [] := by
  decide

theorem test_lda_41A7 :
    runs 0x008000 [0xA7, 0xFF]
      [(0x0000FF, 0x00), (0x000000, 0x30), (0x000100, 0x40), (0x000101, 0x05), (0x054000, 0x99)]
      id
      (fun s => { s with c := 0x0099, pc := 0x8002, p := 0xB4, cycles := 6 }) [] := by
  decide

theorem test_lda_41A8 :
    runs 0x008000 [0xB1, 0x10] [(0x000010, 0xF0), (0x000011, 0xFF), (0x010010, 0x66)]
      (fun s => { s with y := 0x0020, dbr := 0x00 })
      (fun s => { s with c := 0x0066, pc := 0x8002, cycles := 6 }) [] := by
  decide

theorem test_lda_41A9 :
    runs 0x008000 [0xA1, 0xFE] [(0x000003, 0x00), (0x000004, 0x20), (0x002000, 0x3C)]
      (fun s => { s with x := 0x0005 })
      (fun s => { s with c := 0x003C, pc := 0x8002, cycles := 6 }) [] := by
  decide

theorem test_lda_41A10 :
    runs 0x008000 [0xAD, 0x56, 0x34] [(0x123456, 0x9A)]
      (fun s => { s with dbr := 0x12 })
      (fun s => { s with c := 0x009A, pc := 0x8003, p := 0xB4, cycles := 4 }) [] := by
  decide

theorem test_lda_41A11 :
    runs 0x008000 [0xBD, 0xFF, 0x10] [(0x001100, 0x01)]
      (fun s => { s with x := 0x0001 })
      (fun s => { s with c := 0x0001, pc := 0x8003, cycles := 5 }) [] := by
  decide

theorem test_lda_41A12 :
    runs 0x008000 [0xB9, 0x00, 0x10] [(0x001001, 0x02)]
      (fun s => { s with e := false, p := 0x20, y := 0x0001 })
      (fun s => { s with c := 0x0002, pc := 0x8003, cycles := 5 }) [] := by
  decide

theorem test_lda_41A13 :
    runs 0x008000 [0xBF, 0xFF, 0xFF, 0x12] [(0x130000, 0x7E)]
      (fun s => { s with x := 0x0001 })
      (fun s => { s with c := 0x007E, pc := 0x8004, cycles := 5 }) [] := by
  decide

theorem test_lda_41A14 :
    runs 0x008000 [0xA3, 0x03] [(0x0001F3, 0x44)]
      (fun s => { s with sp := 0x01F0 })
      (fun s => { s with c := 0x0044, pc := 0x8002, cycles := 4 }) [] := by
  decide

theorem test_lda_41A15 :
    runs 0x008000 [0xB3, 0x03] [(0x0001F3, 0x00), (0x0001F4, 0x20), (0x012005, 0x55)]
      (fun s => { s with sp := 0x01F0, y := 0x0005, dbr := 0x01 })
      (fun s => { s with c := 0x0055, pc := 0x8002, cycles := 7 }) [] := by
  decide

theorem test_lda_41A16 :
    runs 0x008000 [0xB7, 0x10] [(0x000010, 0x00), (0x000011, 0xFF), (0x000012, 0x7F), (0x800000, 0x3F)]
      (fun s => { s with e := false, p := 0x20, y := 0x0100 })
      (fun s => { s with c := 0x003F, pc := 0x8002, cycles := 6 }) [] := by
  decide

theorem test_ldx_41A19 :
    runs 0x008000 [0xB6, 0xF0] [(0x000010, 0x81)]
      (fun s => { s with y := 0x0020 })
      (fun s => { s with x := 0x0081, pc := 0x8002, p := 0xB4, cycles := 4 }) [] := by
  decide

theorem test_pha_41A20 :
    runs 0x008000 [0x48] []
      (fun s => { s with sp := 0x0100, c := 0x00AB })
      (fun s => { s with sp := 0x01FF, pc := 0x8001, cycles := 3 }) [(0x000100, 0xAB)] := by
  decide

theorem test_pla_41A21 :
    runs 0x008000 [0x68] [(0x000100, 0xCD)]
      (fun s => { s with sp := 0x01FF })
      (fun s => { s with c := 0x00CD, sp := 0x0100, pc := 0x8001, p := 0xB4, cycles := 4 }) [] := by
  decide

theorem test_inc_41A23 :
    runs 0x008000 [0xE6, 0x10] [(0x000010, 0xFF), (0x000011, 0x00)]
      (fun s => { s with e := false, p := 0x00 })
      (fun s => { s with pc := 0x8002, cycles := 7 }) [(0x000011, 0x01), (0x000010, 0x00)] := by
  decide

/-! ### One step: 2.5 Loads, stores, transfers and block moves (42_load_store_transfer.md) -/

theorem test_ldy_42T5 :
    runs 0x008000 [0xAC, 0x00, 0x20] [(0x002000, 0x00)]
      id
      (fun s => { s with pc := 0x8003, p := 0x36, cycles := 4 }) [] := by
  decide

theorem test_sta_42T6 :
    runs 0x008000 [0x8D, 0x00, 0x20] []
      (fun s => { s with e := false, p := 0x00, c := 0xBEEF })
      (fun s => { s with pc := 0x8003, cycles := 5 }) [(0x002000, 0xEF), (0x002001, 0xBE)] := by
  decide

theorem test_stx_42T8 :
    runs 0x008000 [0x86, 0x10] []
      (fun s => { s with e := false, p := 0x20, x := 0x1234 })
      (fun s => { s with pc := 0x8002, cycles := 4 }) [(0x000010, 0x34), (0x000011, 0x12)] := by
  decide

theorem test_sty_42T9 :
    runs 0x008000 [0x8C, 0x00, 0x30] []
      (fun s => { s with y := 0x0056 })
      (fun s => { s with pc := 0x8003, cycles := 4 }) [(0x003000, 0x56)] := by
  decide

theorem test_stz_42T10 :
    runs 0x008000 [0x9C, 0x00, 0x30] []
      (fun s => { s with e := false, p := 0x00 })
      (fun s => { s with pc := 0x8003, cycles := 5 }) [(0x003000, 0x00), (0x003001, 0x00)] := by
  decide

theorem test_tax_42T11 :
    runs 0x008000 [0xAA] []
      (fun s => { s with e := false, p := 0x10, c := 0x1234 })
      (fun s => { s with x := 0x0034, pc := 0x8001, cycles := 2 }) [] := by
  decide

theorem test_txa_42T13 :
    runs 0x008000 [0x8A] []
      (fun s => { s with e := false, p := 0x10, x := 0x0080 })
      (fun s => { s with c := 0x0080, pc := 0x8001, cycles := 2 }) [] := by
  decide

theorem test_tya_42T15 :
    runs 0x008000 [0x98] []
      (fun s => { s with y := 0x0000, c := 0x0011 })
      (fun s => { s with c := 0x0000, pc := 0x8001, p := 0x36, cycles := 2 }) [] := by
  decide

theorem test_txy_42T16 :
    runs 0x008000 [0x9B] []
      (fun s => { s with e := false, p := 0x20, x := 0x8001 })
      (fun s => { s with y := 0x8001, pc := 0x8001, p := 0xA0, cycles := 2 }) [] := by
  decide

theorem test_tyx_42T17 :
    runs 0x008000 [0xBB] []
      (fun s => { s with y := 0x007F })
      (fun s => { s with x := 0x007F, pc := 0x8001, cycles := 2 }) [] := by
  decide

theorem test_tsx_42T18 :
    runs 0x008000 [0xBA] []
      (fun s => { s with sp := 0x01F0 })
      (fun s => { s with x := 0x00F0, pc := 0x8001, p := 0xB4, cycles := 2 }) [] := by
  decide

theorem test_txs_42T19 :
    runs 0x008000 [0x9A] []
      (fun s => { s with x := 0x0080 })
      (fun s => { s with sp := 0x0180, pc := 0x8001, cycles := 2 }) [] := by
  decide

theorem test_tcs_42T21 :
    runs 0x008000 [0x1B] []
      (fun s => { s with c := 0x1234 })
      (fun s => { s with sp := 0x0134, pc := 0x8001, cycles := 2 }) [] := by
  decide

theorem test_tsc_42T22 :
    runs 0x008000 [0x3B] []
      (fun s => { s with sp := 0x01F0, c := 0xAB00 })
      (fun s => { s with c := 0x01F0, pc := 0x8001, cycles := 2 }) [] := by
  decide

theorem test_tcd_42T23 :
    runs 0x008000 [0x5B] []
      (fun s => { s with e := false, p := 0x30, c := 0x0000, d := 0x1200 })
      (fun s => { s with d := 0x0000, pc := 0x8001, p := 0x32, cycles := 2 }) [] := by
  decide

theorem test_tdc_42T24 :
    runs 0x008000 [0x7B] []
      (fun s => { s with d := 0x8000, c := 0x0012 })
      (fun s => { s with c := 0x8000, pc := 0x8001, p := 0xB4, cycles := 2 }) [] := by
  decide

theorem test_xba_42T25 :
    runs 0x008000 [0xEB] []
      (fun s => { s with c := 0x1280 })
      (fun s => { s with c := 0x8012, pc := 0x8001, cycles := 3 }) [] := by
  decide

theorem test_mvn_42T30 :
    runs 0x008000 [0x54, 0x00, 0x00] []
      (fun s => { s with e := false, p := 0x00, c := 0x0005, x := 0x1000, y := 0x2000 })
      (fun s => { s with c := 0x0004, x := 0x1001, y := 0x2001, cycles := 7 }) [(0x002000, 0x00)] := by
  decide

/-! ### One step: 2.6 Arithmetic and logic (43_arith_logic.md) -/

theorem test_adc_43AR1 :
    runs 0x008000 [0x69, 0x01] []
      (fun s => { s with c := 0x007F })
      (fun s => { s with c := 0x0080, pc := 0x8002, p := 0xF4, cycles := 2 }) [] := by
  decide

theorem test_adc_43AR2 :
    runs 0x008000 [0x69, 0x00] []
      (fun s => { s with c := 0x00FF, p := 0x35 })
      (fun s => { s with c := 0x0000, pc := 0x8002, p := 0x37, cycles := 2 }) [] := by
  decide

theorem test_sbc_43AR8 :
    runs 0x008000 [0xE9, 0xB0] []
      (fun s => { s with c := 0x0050, p := 0x35 })
      (fun s => { s with c := 0x00A0, pc := 0x8002, p := 0xF4, cycles := 2 }) [] := by
  decide

theorem test_sbc_43AR9 :
    runs 0x008000 [0xE9, 0x12] []
      (fun s => { s with c := 0x0046, p := 0x3D })
      (fun s => { s with c := 0x0034, pc := 0x8002, cycles := 2 }) [] := by
  decide

theorem test_cmp_43AR13 :
    runs 0x008000 [0xC9, 0x40] []
      (fun s => { s with c := 0x0040 })
      (fun s => { s with pc := 0x8002, p := 0x37, cycles := 2 }) [] := by
  decide

theorem test_cpx_43AR16 :
    runs 0x008000 [0xE0, 0x34, 0x12] []
      (fun s => { s with e := false, p := 0x20, x := 0x1234 })
      (fun s => { s with pc := 0x8003, p := 0x23, cycles := 3 }) [] := by
  decide

theorem test_cpy_43AR17 :
    runs 0x008000 [0xC0, 0x20] []
      (fun s => { s with y := 0x0010 })
      (fun s => { s with pc := 0x8002, p := 0xB4, cycles := 2 }) [] := by
  decide

theorem test_and_43AR18 :
    runs 0x008000 [0x29, 0x0F] []
      (fun s => { s with c := 0xF0F0 })
      (fun s => { s with c := 0xF000, pc := 0x8002, p := 0x36, cycles := 2 }) [] := by
  decide

theorem test_ora_43AR19 :
    runs 0x008000 [0x09, 0x00, 0x80] []
      (fun s => { s with e := false, p := 0x00, c := 0x00F0 })
      (fun s => { s with c := 0x80F0, pc := 0x8003, p := 0x80, cycles := 3 }) [] := by
  decide

theorem test_eor_43AR20 :
    runs 0x008000 [0x49, 0xFF] []
      (fun s => { s with c := 0x00FF })
      (fun s => { s with c := 0x0000, pc := 0x8002, p := 0x36, cycles := 2 }) [] := by
  decide

theorem test_bit_43AR21 :
    runs 0x008000 [0x89, 0x02] []
      (fun s => { s with c := 0x0001, p := 0xF4 })
      (fun s => { s with pc := 0x8002, p := 0xF6, cycles := 2 }) [] := by
  decide

theorem test_bit_43AR22 :
    runs 0x008000 [0x24, 0x10] [(0x000010, 0xC1)]
      (fun s => { s with c := 0x0001 })
      (fun s => { s with pc := 0x8002, p := 0xF4, cycles := 3 }) [] := by
  decide

theorem test_bit_43AR23 :
    runs 0x008000 [0x2C, 0x00, 0x20] [(0x002000, 0x00), (0x002001, 0x40)]
      (fun s => { s with e := false, p := 0x00, c := 0x0000 })
      (fun s => { s with pc := 0x8003, p := 0x42, cycles := 5 }) [] := by
  decide

theorem test_tsb_43AR24 :
    runs 0x008000 [0x04, 0x10] [(0x000010, 0xF0)]
      (fun s => { s with c := 0x000F })
      (fun s => { s with pc := 0x8002, p := 0x36, cycles := 5 }) [(0x000010, 0xFF)] := by
  decide

theorem test_trb_43AR25 :
    runs 0x008000 [0x14, 0x10] [(0x000010, 0xFF)]
      (fun s => { s with c := 0x000F })
      (fun s => { s with pc := 0x8002, cycles := 5 }) [(0x000010, 0xF0)] := by
  decide

theorem test_inc_43AR26 :
    runs 0x008000 [0x1A] []
      (fun s => { s with c := 0x12FF })
      (fun s => { s with c := 0x1200, pc := 0x8001, p := 0x36, cycles := 2 }) [] := by
  decide

theorem test_inc_43AR27 :
    runs 0x008000 [0xEE, 0x00, 0x20] [(0x002000, 0xFF), (0x002001, 0xFF)]
      (fun s => { s with e := false, p := 0x00 })
      (fun s => { s with pc := 0x8003, p := 0x02, cycles := 8 }) [(0x002001, 0x00), (0x002000, 0x00)] := by
  decide

theorem test_dec_43AR28 :
    runs 0x008000 [0x3A] []
      (fun s => { s with c := 0x0000 })
      (fun s => { s with c := 0x00FF, pc := 0x8001, p := 0xB4, cycles := 2 }) [] := by
  decide

theorem test_dec_43AR29 :
    runs 0x008000 [0xC6, 0x10] [(0x000010, 0x01)]
      id
      (fun s => { s with pc := 0x8002, p := 0x36, cycles := 5 }) [(0x000010, 0x00)] := by
  decide

theorem test_inx_43AR30 :
    runs 0x008000 [0xE8] []
      (fun s => { s with x := 0x00FF })
      (fun s => { s with x := 0x0000, pc := 0x8001, p := 0x36, cycles := 2 }) [] := by
  decide

theorem test_iny_43AR31 :
    runs 0x008000 [0xC8] []
      (fun s => { s with e := false, p := 0x20, y := 0x7FFF })
      (fun s => { s with y := 0x8000, pc := 0x8001, p := 0xA0, cycles := 2 }) [] := by
  decide

theorem test_dex_43AR32 :
    runs 0x008000 [0xCA] []
      (fun s => { s with e := false, p := 0x20, x := 0x0000 })
      (fun s => { s with x := 0xFFFF, pc := 0x8001, p := 0xA0, cycles := 2 }) [] := by
  decide

theorem test_dey_43AR33 :
    runs 0x008000 [0x88] []
      (fun s => { s with y := 0x0001 })
      (fun s => { s with y := 0x0000, pc := 0x8001, p := 0x36, cycles := 2 }) [] := by
  decide

/-! ### One step: 2.7 Shifts and rotates (44_shift_rotate.md) -/

theorem test_asl_44SH1 :
    runs 0x008000 [0x0A] []
      (fun s => { s with c := 0x0081 })
      (fun s => { s with c := 0x0002, pc := 0x8001, p := 0x35, cycles := 2 }) [] := by
  decide

theorem test_asl_44SH2 :
    runs 0x008000 [0x06, 0x10] [(0x000010, 0x01), (0x000011, 0x80)]
      (fun s => { s with e := false, p := 0x00 })
      (fun s => { s with pc := 0x8002, p := 0x01, cycles := 7 }) [(0x000011, 0x00), (0x000010, 0x02)] := by
  decide

theorem test_lsr_44SH3 :
    runs 0x008000 [0x4A] []
      (fun s => { s with c := 0x0001 })
      (fun s => { s with c := 0x0000, pc := 0x8001, p := 0x37, cycles := 2 }) [] := by
  decide

theorem test_rol_44SH5 :
    runs 0x008000 [0x2A] []
      (fun s => { s with c := 0x0080, p := 0x35 })
      (fun s => { s with c := 0x0001, pc := 0x8001, cycles := 2 }) [] := by
  decide

theorem test_ror_44SH7 :
    runs 0x008000 [0x6A] []
      (fun s => { s with c := 0x0001, p := 0x35 })
      (fun s => { s with c := 0x0080, pc := 0x8001, p := 0xB5, cycles := 2 }) [] := by
  decide

theorem test_ror_44SH8 :
    runs 0x008000 [0x6E, 0x00, 0x20] [(0x002000, 0x00), (0x002001, 0x00)]
      (fun s => { s with e := false, p := 0x01 })
      (fun s => { s with pc := 0x8003, p := 0x80, cycles := 8 }) [(0x002001, 0x80), (0x002000, 0x00)] := by
  decide

/-! ### One step: 2.8 Branches, jumps and subroutines (45_control.md) -/

theorem test_bne_45BR1 :
    runs 0x008000 [0xD0, 0x10] []
      (fun s => { s with p := 0x36 })
      (fun s => { s with pc := 0x8002, cycles := 2 }) [] := by
  decide

theorem test_bne_45BR2 :
    runs 0x008000 [0xD0, 0x10] []
      (fun s => { s with p := 0x34 })
      (fun s => { s with pc := 0x8012, cycles := 3 }) [] := by
  decide

theorem test_bcc_45BR7 :
    runs 0x008000 [0x90, 0x05] []
      (fun s => { s with p := 0x35 })
      (fun s => { s with pc := 0x8002, cycles := 2 }) [] := by
  decide

theorem test_bcs_45BR8 :
    runs 0x008000 [0xB0, 0x80] []
      (fun s => { s with p := 0x35 })
      (fun s => { s with pc := 0x7F82, cycles := 4 }) [] := by
  decide

theorem test_beq_45BR9 :
    runs 0x008000 [0xF0, 0x7F] []
      (fun s => { s with p := 0x36 })
      (fun s => { s with pc := 0x8081, cycles := 3 }) [] := by
  decide

theorem test_bmi_45BR10 :
    runs 0x008000 [0x30, 0x02] []
      (fun s => { s with p := 0xB4 })
      (fun s => { s with pc := 0x8004, cycles := 3 }) [] := by
  decide

theorem test_bpl_45BR11 :
    runs 0x008000 [0x10, 0x02] []
      (fun s => { s with p := 0xB4 })
      (fun s => { s with pc := 0x8002, cycles := 2 }) [] := by
  decide

theorem test_bvc_45BR12 :
    runs 0x008000 [0x50, 0x02] []
      (fun s => { s with p := 0x74 })
      (fun s => { s with pc := 0x8002, cycles := 2 }) [] := by
  decide

theorem test_bvs_45BR13 :
    runs 0x008000 [0x70, 0x02] []
      (fun s => { s with p := 0x74 })
      (fun s => { s with pc := 0x8004, cycles := 3 }) [] := by
  decide

theorem test_brl_45BR14 :
    runs 0x00FFF0 [0x82, 0x20, 0x00] []
      id
      (fun s => { s with pc := 0x0013, cycles := 4 }) [] := by
  decide

theorem test_jmp_45J1 :
    runs 0x128000 [0x4C, 0x00, 0x90] []
      id
      (fun s => { s with pc := 0x9000, cycles := 3 }) [] := by
  decide

theorem test_jmp_45J2 :
    runs 0x128000 [0x6C, 0x00, 0x10] [(0x001000, 0x34), (0x001001, 0x12), (0x121000, 0x78), (0x121001, 0x56)]
      id
      (fun s => { s with pc := 0x1234, cycles := 5 }) [] := by
  decide

theorem test_jmp_45J3 :
    runs 0x128000 [0x7C, 0x00, 0x10] [(0x001002, 0x34), (0x001003, 0x12), (0x121002, 0x78), (0x121003, 0x56)]
      (fun s => { s with x := 0x0002 })
      (fun s => { s with pc := 0x5678, cycles := 6 }) [] := by
  decide

theorem test_jml_45J4 :
    runs 0x008000 [0x5C, 0x00, 0x90, 0x05] []
      id
      (fun s => { s with pbr := 0x05, pc := 0x9000, cycles := 4 }) [] := by
  decide

theorem test_jml_45J5 :
    runs 0x008000 [0xDC, 0x00, 0x10] [(0x001000, 0x00), (0x001001, 0x90), (0x001002, 0x05)]
      id
      (fun s => { s with pbr := 0x05, pc := 0x9000, cycles := 6 }) [] := by
  decide

theorem test_jsr_45J6 :
    runs 0x008000 [0x20, 0x00, 0x90] []
      id
      (fun s => { s with sp := 0x01FD, pc := 0x9000, cycles := 6 }) [(0x0001FF, 0x80), (0x0001FE, 0x02)] := by
  decide

theorem test_jsr_45J7 :
    runs 0x001FFD [0xFC, 0xFF, 0x0F] [(0x000FFF, 0x00)]
      (fun s => { s with e := false, p := 0x20, x := 0x0000, sp := 0x1001 })
      (fun s => { s with sp := 0x0FFF, pc := 0xFF00, cycles := 8 }) [(0x001001, 0x1F), (0x001000, 0xFF)] := by
  decide

theorem test_jsl_45J8 :
    runs 0x028000 [0x22, 0x00, 0x90, 0x05] []
      id
      (fun s => { s with sp := 0x01FC, pbr := 0x05, pc := 0x9000, cycles := 8 })
      [(0x0001FF, 0x02), (0x0001FE, 0x80), (0x0001FD, 0x03)] := by
  decide

theorem test_rts_45J9 :
    runs 0x009000 [0x60] [(0x0001FE, 0x02), (0x0001FF, 0x80)]
      (fun s => { s with sp := 0x01FD })
      (fun s => { s with sp := 0x01FF, pc := 0x8003, cycles := 6 }) [] := by
  decide

theorem test_rtl_45J11 :
    runs 0x059000 [0x6B] [(0x001FFD, 0x03), (0x001FFE, 0x80), (0x001FFF, 0x02)]
      (fun s => { s with e := false, p := 0x30, sp := 0x1FFC })
      (fun s => { s with sp := 0x1FFF, pbr := 0x02, pc := 0x8004, cycles := 6 }) [] := by
  decide

/-! ### One step: 2.9 Stack instructions (46_stack.md) -/

theorem test_pha_46ST1 :
    runs 0x008000 [0x48] []
      (fun s => { s with e := false, p := 0x00, c := 0x1234, sp := 0x1FFF })
      (fun s => { s with sp := 0x1FFD, pc := 0x8001, cycles := 4 }) [(0x001FFF, 0x12), (0x001FFE, 0x34)] := by
  decide

theorem test_phb_46ST3 :
    runs 0x008000 [0x8B] []
      (fun s => { s with dbr := 0x7E })
      (fun s => { s with sp := 0x01FE, pc := 0x8001, cycles := 3 }) [(0x0001FF, 0x7E)] := by
  decide

theorem test_phd_46ST4 :
    runs 0x008000 [0x0B] []
      (fun s => { s with d := 0x1234 })
      (fun s => { s with sp := 0x01FD, pc := 0x8001, cycles := 4 }) [(0x0001FF, 0x12), (0x0001FE, 0x34)] := by
  decide

theorem test_phk_46ST6 :
    runs 0x128000 [0x4B] []
      id
      (fun s => { s with sp := 0x01FE, pc := 0x8001, cycles := 3 }) [(0x0001FF, 0x12)] := by
  decide

theorem test_php_46ST7 :
    runs 0x008000 [0x08] []
      (fun s => { s with p := 0x31 })
      (fun s => { s with sp := 0x01FE, pc := 0x8001, cycles := 3 }) [(0x0001FF, 0x31)] := by
  decide

theorem test_php_46ST8 :
    runs 0x008000 [0x08] []
      (fun s => { s with e := false, p := 0x01, sp := 0x1FFF })
      (fun s => { s with sp := 0x1FFE, pc := 0x8001, cycles := 3 }) [(0x001FFF, 0x01)] := by
  decide

theorem test_phx_46ST9 :
    runs 0x008000 [0xDA] []
      (fun s => { s with e := false, p := 0x20, x := 0xABCD, sp := 0x1FFF })
      (fun s => { s with sp := 0x1FFD, pc := 0x8001, cycles := 4 }) [(0x001FFF, 0xAB), (0x001FFE, 0xCD)] := by
  decide

theorem test_phy_46ST10 :
    runs 0x008000 [0x5A] []
      (fun s => { s with y := 0x0042 })
      (fun s => { s with sp := 0x01FE, pc := 0x8001, cycles := 3 }) [(0x0001FF, 0x42)] := by
  decide

theorem test_plb_46ST12 :
    runs 0x008000 [0xAB] [(0x0001FF, 0x00)]
      (fun s => { s with sp := 0x01FE })
      (fun s => { s with sp := 0x01FF, pc := 0x8001, p := 0x36, cycles := 4 }) [] := by
  decide

theorem test_pld_46ST13 :
    runs 0x008000 [0x2B] [(0x0001FE, 0x00), (0x0001FF, 0x80)]
      (fun s => { s with sp := 0x01FD })
      (fun s => { s with d := 0x8000, sp := 0x01FF, pc := 0x8001, p := 0xB4, cycles := 5 }) [] := by
  decide

theorem test_plp_46ST14 :
    runs 0x008000 [0x28] [(0x0001FF, 0x00)]
      (fun s => { s with sp := 0x01FE })
      (fun s => { s with sp := 0x01FF, pc := 0x8001, p := 0x30, cycles := 4 }) [] := by
  decide

theorem test_plp_46ST15 :
    runs 0x008000 [0x28] [(0x001FFF, 0x10)]
      (fun s => { s with e := false, p := 0x00, x := 0x1234, y := 0x5678, sp := 0x1FFE })
      (fun s => { s with x := 0x0034, y := 0x0078, sp := 0x1FFF, pc := 0x8001, p := 0x10, cycles := 4 })
      [] := by
  decide

theorem test_plx_46ST16 :
    runs 0x008000 [0xFA] [(0x001FFE, 0x00), (0x001FFF, 0x00)]
      (fun s => { s with e := false, p := 0x20, sp := 0x1FFD })
      (fun s => { s with sp := 0x1FFF, pc := 0x8001, p := 0x22, cycles := 5 }) [] := by
  decide

theorem test_ply_46ST17 :
    runs 0x008000 [0x7A] [(0x0001FF, 0x80)]
      (fun s => { s with sp := 0x01FE })
      (fun s => { s with y := 0x0080, sp := 0x01FF, pc := 0x8001, p := 0xB4, cycles := 4 }) [] := by
  decide

theorem test_pea_46ST18 :
    runs 0x008000 [0xF4, 0x34, 0x12] []
      id
      (fun s => { s with sp := 0x01FD, pc := 0x8003, cycles := 5 }) [(0x0001FF, 0x12), (0x0001FE, 0x34)] := by
  decide

theorem test_pei_46ST19 :
    runs 0x008000 [0xD4, 0x10] [(0x000010, 0x00), (0x000011, 0x20)]
      id
      (fun s => { s with sp := 0x01FD, pc := 0x8002, cycles := 6 }) [(0x0001FF, 0x20), (0x0001FE, 0x00)] := by
  decide

theorem test_pei_46ST20 :
    runs 0x008000 [0xD4, 0xFF] [(0x0000FF, 0x11), (0x000000, 0x22), (0x000100, 0x33)]
      id
      (fun s => { s with sp := 0x01FD, pc := 0x8002, cycles := 6 }) [(0x0001FF, 0x33), (0x0001FE, 0x11)] := by
  decide

theorem test_per_46ST21 :
    runs 0x008000 [0x62, 0xFD, 0xFF] []
      id
      (fun s => { s with sp := 0x01FD, pc := 0x8003, cycles := 6 }) [(0x0001FF, 0x80), (0x0001FE, 0x00)] := by
  decide

/-! ### One step: 2.10 Status, mode and system instructions (47_status_system.md) -/

theorem test_clc_47S1 :
    runs 0x008000 [0x18] []
      (fun s => { s with p := 0x35 })
      (fun s => { s with pc := 0x8001, p := 0x34, cycles := 2 }) [] := by
  decide

theorem test_cld_47S2 :
    runs 0x008000 [0xD8] []
      (fun s => { s with p := 0x3C })
      (fun s => { s with pc := 0x8001, p := 0x34, cycles := 2 }) [] := by
  decide

theorem test_cli_47S3 :
    runs 0x008000 [0x58] []
      (fun s => { s with p := 0x34 })
      (fun s => { s with pc := 0x8001, p := 0x30, cycles := 2 }) [] := by
  decide

theorem test_clv_47S4 :
    runs 0x008000 [0xB8] []
      (fun s => { s with p := 0x74 })
      (fun s => { s with pc := 0x8001, p := 0x34, cycles := 2 }) [] := by
  decide

theorem test_sec_47S5 :
    runs 0x008000 [0x38] []
      (fun s => { s with p := 0x34 })
      (fun s => { s with pc := 0x8001, p := 0x35, cycles := 2 }) [] := by
  decide

theorem test_sed_47S6 :
    runs 0x008000 [0xF8] []
      (fun s => { s with p := 0x34 })
      (fun s => { s with pc := 0x8001, p := 0x3C, cycles := 2 }) [] := by
  decide

theorem test_sei_47S7 :
    runs 0x008000 [0x78] []
      (fun s => { s with p := 0x30 })
      (fun s => { s with pc := 0x8001, p := 0x34, cycles := 2 }) [] := by
  decide

theorem test_rep_47S8 :
    runs 0x008000 [0xC2, 0x30] []
      (fun s => { s with p := 0x34 })
      (fun s => { s with pc := 0x8002, cycles := 3 }) [] := by
  decide

theorem test_rep_47S9 :
    runs 0x008000 [0xC2, 0xFF] []
      (fun s => { s with e := false, p := 0xFF })
      (fun s => { s with pc := 0x8002, p := 0x00, cycles := 3 }) [] := by
  decide

theorem test_sep_47S10 :
    runs 0x008000 [0xE2, 0x10] []
      (fun s => { s with e := false, p := 0x00, x := 0x1234, y := 0xABCD })
      (fun s => { s with x := 0x0034, y := 0x00CD, pc := 0x8002, p := 0x10, cycles := 3 }) [] := by
  decide

theorem test_sep_47S11 :
    runs 0x008000 [0xE2, 0x20] []
      (fun s => { s with e := false, p := 0x00, c := 0x1234 })
      (fun s => { s with pc := 0x8002, p := 0x20, cycles := 3 }) [] := by
  decide

theorem test_xce_47S12 :
    runs 0x008000 [0xFB] []
      (fun s => { s with p := 0x34 })
      (fun s => { s with pc := 0x8001, p := 0x35, e := false, cycles := 2 }) [] := by
  decide

theorem test_xce_47S13 :
    runs 0x008000 [0xFB] []
      (fun s => { s with e := false, p := 0x01, x := 0x1234, y := 0x5678, sp := 0x1FF0 })
      (fun s => { s with x := 0x0034, y := 0x0078, sp := 0x01F0, pc := 0x8001, p := 0x30, e := true, cycles := 2 })
      [] := by
  decide

theorem test_brk_47S15 :
    runs 0x008000 [0x00, 0x00] []
      (fun s => { s with p := 0x30 })
      (fun s => { s with sp := 0x01FC, pc := 0x9000, p := 0x34, cycles := 7 })
      [(0x0001FF, 0x80), (0x0001FE, 0x02), (0x0001FD, 0x30)] := by
  decide

theorem test_brk_47S16 :
    runs 0x028000 [0x00, 0x00] []
      (fun s => { s with e := false, p := 0x38, sp := 0x1FFF })
      (fun s => { s with sp := 0x1FFB, pbr := 0x00, pc := 0xA100, p := 0x34, cycles := 8 })
      [(0x001FFF, 0x02), (0x001FFE, 0x80), (0x001FFD, 0x02), (0x001FFC, 0x38)] := by
  decide

theorem test_cop_47S17 :
    runs 0x028000 [0x02, 0x80] []
      (fun s => { s with e := false, p := 0x08, sp := 0x1FFF })
      (fun s => { s with sp := 0x1FFB, pbr := 0x00, pc := 0xA000, p := 0x04, cycles := 8 })
      [(0x001FFF, 0x02), (0x001FFE, 0x80), (0x001FFD, 0x02), (0x001FFC, 0x08)] := by
  decide

theorem test_cop_47S18 :
    runs 0x008000 [0x02, 0x00] []
      (fun s => { s with p := 0x30 })
      (fun s => { s with sp := 0x01FC, pc := 0xFFF0, p := 0x34, cycles := 7 })
      [(0x0001FF, 0x80), (0x0001FE, 0x02), (0x0001FD, 0x30)] := by
  decide

theorem test_rti_47S19 :
    runs 0x009000 [0x40] [(0x0001FD, 0x31), (0x0001FE, 0x02), (0x0001FF, 0x80)]
      (fun s => { s with sp := 0x01FC })
      (fun s => { s with sp := 0x01FF, pc := 0x8002, p := 0x31, cycles := 6 }) [] := by
  decide

theorem test_rti_47S20 :
    runs 0x00A000 [0x40] [(0x001FFC, 0x08), (0x001FFD, 0x02), (0x001FFE, 0x80), (0x001FFF, 0x02)]
      (fun s => { s with e := false, p := 0x04, sp := 0x1FFB })
      (fun s => { s with sp := 0x1FFF, pbr := 0x02, pc := 0x8002, p := 0x08, cycles := 7 }) [] := by
  decide

theorem test_wai_47S22 :
    runs 0x008000 [0xCB] []
      id
      (fun s => { s with pc := 0x8001, run := .waiting, cycles := 3 }) [] := by
  decide

theorem test_stp_47S23 :
    runs 0x008000 [0xDB] []
      id
      (fun s => { s with pc := 0x8001, run := .stopped, cycles := 3 }) [] := by
  decide

theorem test_nop_47S24 :
    runs 0x008000 [0xEA] []
      id
      (fun s => { s with pc := 0x8001, cycles := 2 }) [] := by
  decide

theorem test_wdm_47S25 :
    runs 0x008000 [0x42, 0xEA] []
      id
      (fun s => { s with pc := 0x8002, cycles := 2 }) [] := by
  decide

theorem test_tay_R228 :
    runs 0x008000 [0xA8] [] (fun s => { s with c := 0x1280 })
      (fun s => { s with y := 0x0080, p := 0xB4, pc := 0x8001, cycles := 2 }) [] := by
  decide

theorem test_mvp_R241 :
    runs 0x008000 [0x44, 0x00, 0x00] [(0x000010, 0x5A)]
      (fun s => { s with c := 0x0000, x := 0x0010, y := 0x0020 })
      (fun s => { s with c := 0xFFFF, x := 0x000F, y := 0x001F, pc := 0x8003, cycles := 7 })
      [(0x000020, 0x5A)] := by
  decide

/-- 60.X1: a read no device claims gives 0 and nothing traps. -/
theorem test_unclaimed_60X1 :
    let b : Bus := { devices := [.ram 0x0000 0xFFFF (Memory.ofCells (wordAt 0x8000 [0xAF, 0x00, 0x00, 0x40]))] }
    let s := { State.reset with c := 0x0055, bus := b }
    reaches s (fun t => t == { s with c := 0x0000, p := 0x36, pc := 0x8004, cycles := 5 }) := by
  decide

/-! ### The bus: 95_test_vectors.md section 2.1 -/

theorem test_readTwoBytes_20B1 :
    ((ramWith [(0x001000, 0x34), (0x001001, 0x12)]).readTwoBytes 0x001000).val = 0x1234 := by decide

theorem test_readAddressAt_20B4 :
    ((ramWith [(0x00FFFF, 0x00), (0x000000, 0x80), (0x000001, 0x02)]).readAddressAt 0x00FFFF).val
      = 0x028000 := by decide

theorem test_storeTwoBytes_20B5 :
    let b : Bus := { devices := [.ram 0x0000 0x0FFF [], .ram 0x1000 0x1FFF []] }
    let t := b.storeTwoBytes 0x000FFF 0x1234
    t = { devices := [.ram 0x0000 0x0FFF [(0x0FFF, 0x34), (0x1000, 0x12)], .ram 0x1000 0x1FFF []] } ∧
      (t.readByte 0x001000).val = 0x00 ∧ (t.readTwoBytes 0x000FFF).val = 0x1234 := by decide

theorem test_unclaimed_20B7 :
    let b : Bus := { devices := [.ram 0x0000 0xFFFF []] }
    (b.readByte 0x400000).val = 0x00 ∧ b.storeByte 0x400000 0x55 = b ∧
      (b.readTwoBytes 0x400000).val = 0x0000 ∧ (b.readAddressAt 0x400000).val = 0x000000 ∧
      b.storeTwoBytes 0x400000 0xBEEF = b := by decide

theorem test_overlap_20B8 :
    let d1 := Device.ram 0x0000 0xFFFF []
    let d2 := Device.ram 0x8000 0x8FFF []
    let b := (Bus.registerDevice { devices := [d1] } d2).storeByte 0x008000 0xAA
    b = { devices := [.ram 0x0000 0xFFFF [(0x8000, 0xAA)], d2] } ∧ (b.readByte 0x008000).val = 0xAA ∧
      ({ devices := [d2, d1] } : Bus).storeByte 0x008000 0xAA
        = { devices := [.ram 0x8000 0x8FFF [(0x8000, 0xAA)], d1] } := by decide

theorem test_addOffset_20B9 :
    addOffset 0x05FFFF 1 = 0x050000 ∧ addOffset 0x05FFFE 3 = 0x050001 ∧
      addOffset 0x000000 0x10000 = 0x000000 := by decide

/-! ### Reset, pins, the counter and the host: section 2.3, SX6 to SX10 -/

/-- The state before reset of 40.K3. -/
def k3 : State :=
  { State.reset with
    e := false, p := 0x09, c := 0xABCD, x := 0x1234, y := 0x5678, d := 0x2000, sp := 0x1FF0
    dbr := 0x7E, pbr := 0x02, pc := 0x9000, run := .stopped, cycles := 100 }

theorem test_reset_40K3 :
    k3.performReset = { k3 with
      e := true, p := 0x39, x := 0x0034, y := 0x0078, d := 0x0000, sp := 0x01FF
      pbr := 0x00, pc := 0x8000, run := .running } := by decide

theorem test_resPin_40K2 :
    let s := { State.reset with d := 0x1234 }
    let held := (s.setRESPin true).setRESPin true
    held = { s with res := true } ∧ held.setRESPin false = { s with d := 0x0000 } ∧
      (((held.setRESPin false).setRegister .d 0x1234).setRESPin false).d = 0x1234 := by decide

theorem test_held_40K1 :
    let s := (v0 0x008000 [0xEA] []).setRESPin true
    s.executeNextInstruction = (false, s) := by decide

theorem test_waiting_40K5 :
    let t := (v0 0x008000 [0xCB, 0xEA] []).executeNextInstruction
    t.1 = false ∧ t.2.pc = 0x8001 ∧ t.2.run = .waiting ∧ t.2.cycles = 3 ∧
      t.2.executeNextInstruction = (false, t.2) ∧
      t.2.performReset.executeNextInstruction = (false, { t.2 with cycles := 6 }) := by decide

theorem test_counter_40K9_40K10_40K11 :
    let s := { State.reset with pbr := 0x03, pc := 0xFFFF }
    (s.addToProgramAddress 2).pc = 0x0001 ∧ (s.addToProgramAddress 2).pbr = 0x03 ∧
      ({ State.reset with cycles := 10 }.addToProgramAddressAndCycles 3 4)
        = { State.reset with pc := 0x8003, cycles := 14 } ∧
      ({ State.reset with cycles := 2 }.subtractFromCycles 5).cycles = -3 := by decide

theorem test_rdy_40K12 :
    let t := ((v0 0x008000 [0xEA] []).setRDYPin false).executeNextInstruction
    t.1 = true ∧ t.2.rdy = false ∧ t.2.pc = 0x8001 ∧ t.2.cycles = 2 := by decide

theorem test_width_queries_SX9_SX10 :
    ({ State.reset with p := 0x00 }.accIs8 = true) ∧
      ({ State.reset with e := false, p := 0x10 }.accIs8 = false) ∧
      ({ State.reset with e := false, p := 0x10 }.indexIs8 = true) ∧
      ({ State.reset with x := 0x12FF }.xe = 0x00FF) ∧
      ({ State.reset with e := false, p := 0x00, x := 0x12FF }.xe = 0x12FF) := by decide

/-- Waiting and Stopped behave the same, and the host tells them apart; it reads the pins and a device's
state (R433, R168, R385). -/
theorem test_getters_R433 :
    let after (op : Byte) := (v0 0x008000 [op] []).executeNextInstruction.2
    (HostAction.getRun.apply (after 0xCB)).1 = .run .waiting ∧
      (HostAction.getRun.apply (after 0xDB)).1 = .run .stopped ∧
      (HostAction.getRES.apply (State.reset.setRESPin true)).1 = .bool true ∧
      (HostAction.getRDY.apply (State.reset.setRDYPin false)).1 = .bool false ∧
      ((HostAction.getDeviceState 0).apply (v0 0x008000 [0xEA] [])).1
        = .deviceState (some (.cells [(0x008000, 0xEA)])) ∧
      ((HostAction.getDeviceState 1).apply State.reset).1 = .deviceState none := by decide

/-- With no device registered, no program may be launched (R454 step 2, R456). -/
theorem test_not_launched_without_devices (uses : Address → Prop) :
    ¬ State.Launched uses { State.reset with bus := { devices := [] } } :=
  fun h => absurd h.entry (by unfold Bus.Claims; decide)

/-- The stack page and the entry are not enough for a program that uses another address (R456). -/
theorem test_not_launched_without_its_addresses :
    ¬ State.Launched (· = 0x400000)
      { State.reset with bus := { devices := [.ram 0x0100 0x01FF [], .ram 0x8000 0xFFFF []] } } :=
  fun h => absurd (h.used 0x400000 rfl) (by unfold Bus.Claims; decide)

/-- A run ends at the first call that returns false (R173). -/
theorem test_runCalls_R173 :
    ((v0 0x008000 [0xEA, 0xDB, 0xEA] []).runCalls 5).1 = 2 := by decide

/-- Construction does not reset, and starts with an empty bus (R52, R450). -/
theorem test_construct_R52 (r : PowerOn) :
    (State.construct Config.reference r).pc = r.pc ∧
      (State.construct Config.reference r).bus.devices = [] ∧
      (State.construct Config.reference r).run = .running := ⟨rfl, rfl, rfl⟩

/-- The table words of `LDA #$12` and of `JSL $030000`, and an opcode whose operand bytes are 0 (R121). -/
theorem test_decodeTableWord :
    decodeTableWord 16 0x12A9 = some (.ldaImm 0x12) ∧
      decodeTableWord 32 0x03000022 = some (.jsl 0x030000) ∧
      decodeTableWord 8 0x22 = some (.jsl 0x000000) := by decide

/-- The very next step runs the word placed where it fetches (log entries 4 and 14). -/
theorem test_withFetchWord :
    reaches ({ State.reset with pbr := 0x01, pc := 0xFFFF }.withFetchWord 16 0x5EA9)
      (fun t => t.a == 0x5E && t.pc == 0x0001 && t.pbr == 0x01) := by
  decide

/-! ### Witnesses of the obligations' hypotheses -/

/-- Native mode with both widths 16 and the stack away from page 1. -/
def wide : State := { State.reset with e := false, p := 0x00, sp := 0x1FFF }

/-- Native mode with both widths 16 and S at its lowest value, so that a push wraps. -/
def wideLow : State := { wide with sp := 0x0000 }

/-- Emulation mode with S at the bottom of page 1, so that a push wraps. -/
def emuLow : State := { State.reset with sp := 0x0100 }

theorem holds_everywhere (cells : List Host.Cell) (a : Address) : (ramWith cells).Holds a := by
  refine ⟨0, 0, 0xFFFFFF, Memory.ofCells cells, a, ?_⟩
  have h : a.toNat ≤ 0xFFFFFF := by have := a.isLt; omega
  simp [Bus.resolve, resolveIn, Device.decode, ramWith, h]

theorem holds_reset (a : Address) : State.reset.bus.Holds a := holds_everywhere [] a

theorem witness_memory_wf :
    Memory.wf [] ∧ State.reset.bus.wf ∧ (ramWith [(0xFFFFFF, 0x01), (0x000000, 0x02)]).wf := by decide

theorem inv_reset : State.reset.Inv :=
  ⟨by unfold State.EmulationInv; decide, by unfold State.NarrowIndexInv; decide, by decide⟩

theorem inv_wide : wide.Inv :=
  ⟨by unfold State.EmulationInv; decide, by unfold State.NarrowIndexInv; decide, by decide⟩

theorem inv_emuLow : emuLow.Inv :=
  ⟨by unfold State.EmulationInv; decide, by unfold State.NarrowIndexInv; decide, by decide⟩

theorem inv_wideLow : wideLow.Inv :=
  ⟨by unfold State.EmulationInv; decide, by unfold State.NarrowIndexInv; decide, by decide⟩

/-- DecodeOfEncode: both widths, at the greatest immediate, and an instruction with no immediate. -/
theorem witness_DecodeOfEncode :
    (Instr.ldaImm 0xFF).wf true true = true ∧ (Instr.ldaImm 0xFFFF).wf false true = true ∧
      (Instr.cpxImm 0xFFFF).wf true false = true ∧ (Instr.jsl 0xFFFFFF).wf true true = true := by decide

/-- EncodeOfDecode. -/
theorem witness_EncodeOfDecode : decode true true [0x44, 0x02, 0x01, 0x99] = .ok (.mvp 0x02 0x01, [0x99]) := rfl

/-- ImmediateWidths: a row of each list, an opcode of each kind in the third clause, and enough bytes. -/
theorem witness_ImmediateWidths :
    ((0xE9 : Byte), Instr.sbcImm) ∈ [((0x09 : Byte), Instr.oraImm), (0xE9, .sbcImm)] ∧
      ((0xE0 : Byte), Instr.cpxImm) ∈ [((0xA0 : Byte), Instr.ldyImm), (0xE0, .cpxImm)] ∧
      (0x22 : Byte) ∉ [(0x09 : Byte), 0x29, 0x49, 0x69, 0x89, 0xA9, 0xC9, 0xE9, 0xA0, 0xA2, 0xC0, 0xE0] ∧
      (0xE2 : Byte) ∈ [(0xC2 : Byte), 0xE2, 0x00, 0x02, 0x42] ∧
      operandCount false false 0x22 ≤ [(0x00 : Byte), 0x00, 0x03].length :=
  ⟨by simp, by simp, by decide, by decide, by decide⟩

/-- OpcodesFollowTheRegularities, a form of each clause. -/
theorem witness_OpcodesFollowTheRegularities :
    (Instr.sbcLongx 0).shape = .acc .sbc (.mem (.longx 0)) ∧ (Instr.staIsry 0).shape = .store .a (.isry 0) ∧
      (Instr.cmpImm 0).shape = .compare .a (.imm 0) ∧ (Instr.rorAbsx 0).shape = .modify .ror (.absx 0) ∧
      Instr.lsrAcc.shape = .modifyA .lsr ∧ ModifyOp.lsr.groupBase = some 0x40 := by decide

/-- StepRunsDecodedInstruction: an instruction that ends its bank, its operand byte at the bank's start. -/
theorem witness_StepRunsDecodedInstruction :
    let s := v0 0x01FFFF [0xA9, 0x5E] []
    s.Executing ∧ (Instr.ldaImm 0x5E).wf s.accIs8 s.indexIs8 = true ∧
      ∀ (k : Nat) (v : Byte), (encode s.accIs8 s.indexIs8 (.ldaImm 0x5E))[k]? = some v →
        s.bus.peek (mkAddress s.pbr (s.pc + BitVec.ofNat 16 k)) = some v := by
  refine ⟨by unfold State.Executing; decide, by decide, fun k v h => ?_⟩
  change ([0xA9, 0x5E] : List Byte)[k]? = some v at h
  match k, h with
  | 0, h     => exact (by decide : _ = some (0xA9 : Byte)).trans h
  | 1, h     => exact (by decide : _ = some (0x5E : Byte)).trans h
  | k + 2, h => exact absurd h (by simp)

/-- HeldOrHaltedDoesNothing, both conditions. -/
theorem witness_HeldOrHaltedDoesNothing :
    (State.reset.setRESPin true).res = true ∧ ({ State.reset with run := .waiting } : State).run ≠ .running ∧
      k3.run ≠ .running := by decide

/-- OnlyWaiAndStpReturnFalse, and the last clause of WaiStpNopWdmDoLittle: WAI, STP and another. -/
theorem witness_OnlyWaiAndStpReturnFalse :
    (v0 0x008000 [0xCB] []).Executing ∧ (v0 0x008000 [0xCB] []).fetch.val = .wai ∧
      (v0 0x008000 [0xDB] []).fetch.val = .stp ∧ (v0 0x008000 [0xEA] []).fetch.val = .nop := by
  unfold State.Executing; decide

/-- ResPinReleaseResetsOnce and SettersTruncateAndDoNothingElse. -/
theorem witness_pins_and_setters :
    (State.reset.setRESPin true).res = true ∧ State.reset.res = false ∧
      Register.pc ≠ .pbr ∧ State.reset.setRegister .dbr 0x1FF = { State.reset with dbr := 0xFF } := by decide

/-- HostReadsAllState: two different states, of two configurations, that answer every getter alike. -/
theorem witness_HostReadsAllState :
    let t := { State.reset with cfg := { Config.reference with rdyInit := false } }
    t ≠ State.reset ∧
      ∀ h : HostAction, h.isGetter = true → (h.apply t).1 = (h.apply State.reset).1 := by
  refine ⟨by decide, fun h hg => ?_⟩
  cases h with
  | getRegister r => cases r <;> rfl
  | getFlag f | getDeviceState i => rfl
  | getE | getCycles | getRES | getRDY | getRun => rfl
  | registerDevice d | setRESPin v | setRDYPin v | reset | executeNextInstruction | setRegister r v
  | setFlag f v | setE v | readByte a | storeByte a v | readTwoBytes a | storeTwoBytes a v
  | readAddressAt a | setDeviceState i st => exact absurd hg (by simp [HostAction.isGetter])

/-- StepKeepsInvariant: a state of each mode that meets the invariant and takes a step. -/
theorem witness_StepKeepsInvariant :
    State.reset.Inv ∧ (∃ t, step State.reset = .next t) ∧ wide.Inv ∧ ∃ t, step wide = .next t :=
  ⟨inv_reset, ⟨_, rfl⟩, inv_wide, ⟨_, rfl⟩⟩

/-- OnlyTheirInstructionsWriteModeAndBanks: each register does change. -/
theorem witness_OnlyTheirInstructionsWriteModeAndBanks :
    (∃ t, exec .xce State.reset = .next t ∧ t.e ≠ State.reset.e) ∧
      (∃ t, exec .tcd k3 = .next t ∧ t.d ≠ k3.d) ∧
      (∃ t, exec (.mvn 0x7F 0x00) wide = .next t ∧ t.dbr ≠ wide.dbr) ∧
      (∃ t, exec (.jsl 0x030000) wide = .next t ∧ t.pbr ≠ wide.pbr) ∧
      (∃ t, exec .stp wide = .next t ∧ t.run ≠ wide.run) :=
  ⟨⟨_, rfl, by decide⟩, ⟨_, rfl, by decide⟩, ⟨_, rfl, by decide⟩, ⟨_, rfl, by decide⟩,
    ⟨_, rfl, by decide⟩⟩

/-- OnlyTheirInstructionsWriteFlags: each flag does change. -/
theorem witness_OnlyTheirInstructionsWriteFlags :
    (∃ t, exec (.sep 0x30) wide = .next t ∧ t.flag .m ≠ wide.flag .m ∧ t.flag .x ≠ wide.flag .x) ∧
      (∃ t, exec .sed wide = .next t ∧ t.flag .d ≠ wide.flag .d) ∧
      (∃ t, exec (.brk 0x00) wide = .next t ∧ t.flag .i ≠ wide.flag .i) ∧
      (∃ t, exec (.adcImm 0x8000) { wide with c := 0x8000 } = .next t ∧
        t.flag .v ≠ wide.flag .v ∧ t.flag .c ≠ wide.flag .c) :=
  ⟨⟨_, rfl, by decide⟩, ⟨_, rfl, by decide⟩, ⟨_, rfl, by decide⟩, ⟨_, rfl, by decide⟩⟩

/-- WidthStateTransitions: a case of each row. -/
theorem witness_WidthStateTransitions :
    (∃ t, exec .nop State.reset = .next t ∧ t.widthState = .emulation) ∧
      (∃ t, exec .xce wide = .next t ∧ t.widthState = .nativeWideBoth) ∧
      (∃ t, exec (.rep 0x20) { wide with p := 0x30 } = .next t ∧ t.widthState = .nativeWideAccumulator) ∧
      (∃ t, exec (.sep 0x20) wide = .next t ∧ t.widthState = .nativeWideIndex ∧
        wide.flag .m = false ∧ t.flag .m = true) ∧
      (∃ t, exec .plp { wide with bus := ramWith [(0x2000, 0x10)], x := 0x1234 } = .next t ∧
        t.widthState = .nativeWideAccumulator ∧ t.flag .x = true ∧ t.x = 0x0034) ∧
      State.reset.EmulationInv ∧ State.reset.flag .c = false ∧
      (∃ t, exec .xce State.reset = .next t ∧ t.widthState = .nativeNarrow) :=
  ⟨⟨_, rfl, by decide⟩, ⟨_, rfl, by decide⟩, ⟨_, rfl, by decide⟩, ⟨_, rfl, by decide⟩,
    ⟨_, rfl, by decide⟩, inv_reset.emulation, by decide, ⟨_, rfl, by decide⟩⟩

/-- UnreadInputsDoNotMatter: another configuration with the same vectors of BRK and COP. -/
theorem witness_UnreadInputsDoNotMatter :
    let k := { Config.reference with
      vecE := { Config.reference.vecE with reset := 0xC000, nmi := 1 }, stackResetLow := 0x80, rdyInit := false }
    k ≠ Config.reference ∧ k.vecE.cop = State.reset.cfg.vecE.cop ∧ k.vecE.irqbrk = State.reset.cfg.vecE.irqbrk ∧
      k.vecN.cop = State.reset.cfg.vecN.cop ∧ k.vecN.brk = State.reset.cfg.vecN.brk := by decide

/-- FirstRegisteredDeviceWins, WideBusOperationsDecodeOnce and StoredByteReadsBack: an address that the
second of two devices answers, at both its ends, and the addresses beside it that none does. -/
theorem witness_bus :
    let b : Bus := { devices := [.ram 0x1000 0x1FFF [], .ram 0x2000 0x2FFF [(0x2FFF, 0x5A)]] }
    b.resolve 0x001FFF = some { index := 0, dev := .ram 0x1000 0x1FFF [], loc := 0x001FFF } ∧
      b.resolve 0x002000 = some { index := 1, dev := .ram 0x2000 0x2FFF [(0x2FFF, 0x5A)], loc := 0x002000 } ∧
      b.resolve 0x003000 = none ∧ b.resolve 0x000FFF = none ∧ b.wf ∧ b.peek 0x002FFF = some 0x5A := by decide

/-- LoadedOperandIsMemory: a mode with a pointer, its data at the end of a bank. -/
theorem witness_LoadedOperandIsMemory :
    let s := { wide with bus := ramWith [(0x0010, 0xFF), (0x0011, 0xFF), (0x00FFFF, 0x34), (0x010000, 0x12)] }
    s.bus.peek ((s.effective (.idp 0x10)).loc.addr 0) = some 0x34 ∧
      s.bus.peek ((s.effective (.idp 0x10)).loc.addr 1) = some 0x12 := by decide

/-- PullGivesBackThePush, ReturnComesBackFromCall and RtiUndoesBrkAndCop: both modes, with and without a
wrap of S. -/
theorem witness_stack (n : Nat) :
    (∀ s ∈ [State.reset, wide, emuLow, wideLow], s.bus.wf ∧ (s.e = true → highByte s.sp = 0x01) ∧
      ∀ a ∈ pushSlots s.e n s.sp, s.bus.Holds a) ∧
    emuLow.Inv ∧ wideLow.Inv :=
  ⟨by
    intro s hs
    simp only [List.mem_cons, List.not_mem_nil, or_false] at hs
    obtain rfl | rfl | rfl | rfl := hs <;>
      exact ⟨by decide, by decide, fun a _ => holds_reset a⟩,
    inv_emuLow, inv_wideLow⟩

/-- The statements about instructions of one shape: instructions that have it. -/
theorem witness_shapes :
    (Instr.ldaSr 0).shape = .acc .lda (.mem (.sr 0)) ∧ (Instr.ldxDpy 0).shape = .loadX (.mem (.dpy 0)) ∧
      (Instr.ldyImm 0).shape = .loadY (.imm 0) ∧ (Instr.staLong 0).shape = .store .a (.long 0) ∧
      (Instr.stxDpy 0).shape = .store .x (.dpy 0) ∧ (Instr.styAbs 0).shape = .store .y (.abs 0) ∧
      (Instr.stzAbsx 0).shape = .store .zero (.absx 0) ∧ (Instr.adcIdpy 0).shape = .acc .adc (.mem (.idpy 0)) ∧
      (Instr.sbcImm 0).shape = .acc .sbc (.imm 0) ∧ (Instr.cmpIldp 0).shape = .compare .a (.mem (.ildp 0)) ∧
      (Instr.cpxDp 0).shape = .compare .x (.mem (.dp 0)) ∧ (Instr.cpyImm 0).shape = .compare .y (.imm 0) ∧
      (Instr.oraIdpx 0).shape = .acc .ora (.mem (.idpx 0)) ∧ (Instr.bitImm 0).shape = .bit (.imm 0) ∧
      (Instr.bitAbsx 0).shape = .bit (.mem (.absx 0)) ∧ (Instr.tsbDp 0).shape = .modify .tsb (.dp 0) ∧
      Instr.incAcc.shape = .modifyA .inc ∧ (Instr.bne 0).shape = .branch (some (.z, false)) 0 ∧
      (Instr.bra 0).shape = .branch none 0 := by decide

/-- DecimalModeIsDecimalArithmetic, the ADC clause: digits at both ends of their range, at width 16, with
a carry out of every digit. -/
theorem witness_DecimalModeIsDecimalArithmetic :
    let s := { wide with p := 0x08, c := 0x9999 }
    s.flag .d = true ∧ isDecimal (s.acc s.wm) ∧ isDecimal (s.load s.wm (.imm 0x0001)).value ∧
      (Instr.adcImm 0x0001).shape = .acc .adc (.imm 0x0001) := by
  unfold isDecimal; decide

/-- DecimalModeIsDecimalArithmetic, the SBC clause: digits at both ends of their range, at width 16, with
a borrow in and a borrow out of every digit. -/
theorem witness_DecimalModeIsDecimalArithmetic_sbc :
    let s := { wide with p := 0x08, c := 0x0000 }
    s.flag .d = true ∧ s.flag .c = false ∧ isDecimal (s.acc s.wm) ∧
      isDecimal (s.load s.wm (.imm 0x9999)).value ∧
      (Instr.sbcImm 0x9999).shape = .acc .sbc (.imm 0x9999) := by
  unfold isDecimal; decide

/-- The statements over a choice of instructions: BRK and COP, the block moves, the calls, the flag
instructions. -/
theorem witness_choices :
    (Instr.cop 0x80 = .brk 0x80 ∨ Instr.cop 0x80 = .cop 0x80) ∧
      (Instr.mvp 1 2 = .mvn 1 2 ∨ Instr.mvp 1 2 = .mvp 1 2) ∧
      (Instr.jsrIabsx 0 = .jsrJabs 0 ∨ Instr.jsrIabsx 0 = .jsrIabsx 0) ∧
      (Instr.sei, Sys2Proof.Machine.Flag.i, true) ∈ [(Instr.clc, Sys2Proof.Machine.Flag.c, false), (.sei, .i, true)] := by
  decide

end Sys2Proof.Tests
end

/-! SUPPORT. What an instruction may write, and that it keeps the invariant of 10_state.md R33 and R34: the
effect of each state operation, of each pattern composed of them, and of every instruction. -/

namespace Sys2Proof.Machine

/-! ### Who may write what -/

/-- The registers many instructions write. Each other field has its own few writers. -/
def ordinaryFields : List Field := [.c, .x, .y, .sp, .pc, .cycles]

/-- The writers of the fields that are not ordinary (10_state.md R24, R26, R27, R29, R43 to R45, R49). -/
def Field.Writer (f : Field) (i : Instr) : Prop :=
  match f with
  | .c | .x | .y | .sp | .pc | .cycles => True
  | .e => i = .xce
  | .d => i = .tcd ∨ i = .pld
  | .dbr => i = .plb ∨ ∃ dd ss, i = .mvn dd ss ∨ i = .mvp dd ss
  | .pbr => i = .rtl ∨ i = .rti ∨ (∃ a, i = .jmlJlong a ∨ i = .jsl a) ∨ (∃ a, i = .jmlIlabs a) ∨
      ∃ sig, i = .brk sig ∨ i = .cop sig
  | .run => i = .wai ∨ i = .stp
  | .res | .rdy | .cfg => False

/-- The instructions that write P as a byte (47_status_system.md R370). -/
def WholePWriter (i : Instr) : Prop := i = .plp ∨ i = .rti ∨ ∃ mask, i = .rep mask ∨ i = .sep mask

/-- ADC and SBC. -/
def SumWriter (i : Instr) : Prop := ∃ o, i.shape = .acc .adc o ∨ i.shape = .acc .sbc o

/-- The shifts and rotates. -/
def ShiftWriter (i : Instr) : Prop :=
  ∃ op : ModifyOp, (op = .asl ∨ op = .lsr ∨ op = .rol ∨ op = .ror) ∧
    (i.shape = .modifyA op ∨ ∃ m, i.shape = .modify op m)

/-- BRK and COP. -/
def InterruptWriter (i : Instr) : Prop := ∃ sig, i = .brk sig ∨ i = .cop sig

/-- The writers of each flag but N and Z, which have many (10_state.md R30, R37 to R39, R41). -/
def Flag.Writer (f : Flag) (i : Instr) : Prop :=
  match f with
  | .n | .z => True
  | .m | .x => WholePWriter i ∨ i = .xce
  | .d => WholePWriter i ∨ i = .cld ∨ i = .sed ∨ InterruptWriter i
  | .i => WholePWriter i ∨ i = .cli ∨ i = .sei ∨ InterruptWriter i
  | .v => WholePWriter i ∨ SumWriter i ∨ i = .clv ∨ ∃ m, i.shape = .bit (.mem m)
  | .c => WholePWriter i ∨ SumWriter i ∨ ShiftWriter i ∨ i = .clc ∨ i = .sec ∨ i = .xce ∨
      ∃ r o, i.shape = .compare r o

theorem WholePWriter.writer {i : Instr} (h : WholePWriter i) (f : Flag) : f.Writer i :=
  match f with
  | .n | .z => trivial
  | .m | .x | .d | .i | .v | .c => .inl h

/-! ### Effects -/

/-- A change of state that writes, besides the ordinary fields and N and Z, only fields of `F` and flags
of `G`, and that keeps the invariant. -/
structure Effect (F : Field → Prop) (G : Flag → Prop) (s t : State) : Prop where
  fields : ∀ f, f ∉ ordinaryFields → ¬F f → f.Same s t
  flags  : ∀ f, f ≠ .n → f ≠ .z → ¬G f → t.flag f = s.flag f
  inv    : s.Inv → t.Inv

/-- Effects compose, so an instruction's is that of the state operations it is written with. -/
theorem Effect.trans {F : Field → Prop} {G : Flag → Prop} {s t u : State} (h : Effect F G s t)
    (h' : Effect F G t u) : Effect F G s u where
  fields f ho hf := by cases f <;> exact (h'.fields _ ho hf).trans (h.fields _ ho hf)
  flags f hn hz hf := (h'.flags f hn hz hf).trans (h.flags f hn hz hf)
  inv hs := h'.inv (h.inv hs)

/-- The invariant after a change that keeps the mode and the width flags: the high bytes of narrow
indexes, page 1 of S and the canonical form of memory are all that matters. -/
theorem State.Inv.of_kept {s t : State} (h : s.Inv) (he : t.e = s.e) (hm : t.flag .m = s.flag .m)
    (hx : t.flag .x = s.flag .x)
    (hi : s.indexIs8 = true → highByte s.x = 0 ∧ highByte s.y = 0 → highByte t.x = 0 ∧ highByte t.y = 0)
    (hs : s.e = true → highByte s.sp = 0x01 → highByte t.sp = 0x01) (hb : s.bus.wf → t.bus.wf) : t.Inv := by
  have hn : t.NarrowIndexInv := fun ht =>
    have ht : s.indexIs8 = true := by rwa [State.indexIs8, he, hx] at ht
    hi ht (h.narrow ht)
  refine ⟨fun ht => ?_, hn, hb h.memory⟩
  have hse : s.e = true := he ▸ ht
  obtain ⟨h1, h2, -, -, h5⟩ := h.emulation hse
  obtain ⟨h3, h4⟩ := hn (by simp [State.indexIs8, ht])
  exact ⟨hm ▸ h1, hx ▸ h2, h3, h4, hs hse h5⟩

/-- A state with all that emulation mode asks meets the invariant, in either mode. -/
theorem State.inv_of_emulation {s : State} (hm : s.flag .m = true) (hx : s.flag .x = true)
    (hX : highByte s.x = 0) (hY : highByte s.y = 0) (hs : highByte s.sp = 0x01) (hb : s.bus.wf) : s.Inv :=
  ⟨fun _ => ⟨hm, hx, hX, hY, hs⟩, fun _ => ⟨hX, hY⟩, hb⟩

/-- A value at the index width has no high byte when the index is narrow. -/
theorem highByte_trunc_wx {s : State} (h : s.indexIs8 = true) (v : Word) : highByte (s.wx.trunc v) = 0 := by
  simp [State.wx, Width.ofNarrow, h]

/-! ### The effect of each state operation -/

namespace Effect

variable {F : Field → Prop} {G : Flag → Prop} (s : State)

/-- A write of ordinary registers and the bus. -/
theorem ordinary {c x y sp pc : Word} {cycles : Int} {bus : Bus}
    (hi : s.indexIs8 = true → highByte s.x = 0 ∧ highByte s.y = 0 → highByte x = 0 ∧ highByte y = 0)
    (hs : s.e = true → highByte s.sp = 0x01 → highByte sp = 0x01) (hb : s.bus.wf → bus.wf) :
    Effect F G s { s with c := c, x := x, y := y, sp := sp, pc := pc, cycles := cycles, bus := bus } where
  fields f ho _ := by cases f <;> first | rfl | simp [ordinaryFields] at ho
  flags _ _ _ _ := rfl
  inv h := h.of_kept rfl rfl rfl hi hs hb

/-- A write of P that keeps the width flags. -/
theorem withP {p : Byte} (hp : ∀ f, f ≠ .n → f ≠ .z → ¬G f → getFlag p f = getFlag s.p f)
    (hm : getFlag p .m = getFlag s.p .m) (hx : getFlag p .x = getFlag s.p .x) :
    Effect F G s { s with p := p } where
  fields f _ _ := by cases f <;> rfl
  flags := hp
  inv h := h.of_kept rfl hm hx (fun _ h => h) (fun _ h => h) fun h => h

/-- A write of registers that have their own writers. -/
theorem ownFields {d : Word} {dbr pbr : Byte} {run : RunState} (hd : F .d ∨ d = s.d := by exact .inr rfl)
    (hdbr : F .dbr ∨ dbr = s.dbr := by exact .inr rfl) (hpbr : F .pbr ∨ pbr = s.pbr := by exact .inr rfl)
    (hrun : F .run ∨ run = s.run := by exact .inr rfl) :
    Effect F G s { s with d := d, dbr := dbr, pbr := pbr, run := run } where
  fields f _ hf := by
    cases f with
    | d => exact hd.resolve_left hf
    | dbr => exact hdbr.resolve_left hf
    | pbr => exact hpbr.resolve_left hf
    | run => exact hrun.resolve_left hf
    | _ => rfl
  flags _ _ _ _ := rfl
  inv h := h.of_kept rfl rfl rfl (fun _ h => h) (fun _ h => h) fun h => h

theorem addToCycles (n : Nat) : Effect F G s (s.addToCycles n) :=
  ordinary s (fun _ h => h) (fun _ h => h) fun h => h

theorem finish (len cyc : Nat) : Effect F G s (s.finish len cyc) :=
  ordinary s (fun _ h => h) (fun _ h => h) fun h => h

theorem withPc (pc : Word) : Effect F G s { s with pc := pc } :=
  ordinary s (fun _ h => h) (fun _ h => h) fun h => h

theorem withC (c : Word) : Effect F G s { s with c := c } :=
  ordinary s (fun _ h => h) (fun _ h => h) fun h => h

theorem withBus {b : Bus} (hb : s.bus.OnlyRead b) : Effect F G s (s.withBus b) :=
  ordinary s (fun _ h => h) (fun _ h => h) hb.wf

theorem setX {w : Width} (hw : w = s.wx) (v : Word) : Effect F G s (s.setX w v) := by
  subst hw
  exact ordinary s (fun hn h => ⟨highByte_trunc_wx hn v, h.2⟩) (fun _ h => h) fun h => h

theorem setY {w : Width} (hw : w = s.wx) (v : Word) : Effect F G s (s.setY w v) := by
  subst hw
  exact ordinary s (fun hn h => ⟨h.1, highByte_trunc_wx hn v⟩) (fun _ h => h) fun h => h

theorem withS (v : Word) : Effect F G s { s with sp := if s.e then joinBytes 0x01 (lowByte v) else v } :=
  ordinary s (fun _ h => h) (fun he _ => by rw [he]; exact highByte_joinBytes _ _) fun h => h

theorem setProgramAddress (hF : F .pbr) (bank : Byte) (offset : Word) :
    Effect F G s (s.setProgramAddress bank offset) :=
  (ownFields s (pbr := bank) (hpbr := .inl hF)).trans (withPc _ offset)

theorem push8 (v : Byte) : Effect F G s (s.push8 v) :=
  ordinary s (fun _ h => h) (fun he _ => highByte_stackDown_of he) fun h => Bus.wf_storeByte h _ _

theorem push16 (v : Word) : Effect F G s (s.push16 v) := (push8 s _).trans (push8 _ _)

theorem push24 (bank : Byte) (v : Word) : Effect F G s (s.push24 bank v) := (push8 s bank).trans (push16 _ v)

theorem pushW (w : Width) (v : Word) : Effect F G s (s.pushW w v) := by
  cases w
  · exact push8 s _
  · exact push16 s v

theorem pull8 : Effect F G s s.pull8.st :=
  ordinary s (fun _ h => h) (fun he _ => by rw [he]; exact highByte_stackUp _) fun h => Bus.wf_readByte h _

theorem pull16 : Effect F G s s.pull16.st := (pull8 s).trans (pull8 _)

theorem pullW (w : Width) : Effect F G s (s.pullW w).st := by
  cases w
  · exact pull8 s
  · exact pull16 s

theorem setNZ (w : Width) (v : Word) : Effect F G s (s.setNZ w v) :=
  withP s (fun f hn hz _ => by cases f <;> simp [getFlag_putNZ] at hn hz ⊢) (getFlag_putNZ ..) (getFlag_putNZ ..)

theorem setFlag (b : Bool) {f : Flag} (hf : G f) (hm : f ≠ .m) (hx : f ≠ .x) : Effect F G s (s.setFlag f b) :=
  withP s (fun g _ _ hg => getFlag_putFlag_ne (by rintro rfl; exact hg hf) b s.p)
    (getFlag_putFlag_ne hm.symm b s.p) (getFlag_putFlag_ne hx.symm b s.p)

/-- `WriteP` in emulation mode sets both width flags, and with X set it clears the high bytes
(47_status_system.md R370). -/
theorem writeP (hG : ∀ f, G f) (v : Byte) : Effect F G s (s.writeP v) where
  fields f ho _ := by cases f <;> first | rfl | simp [ordinaryFields] at ho
  flags f _ _ hf := absurd (hG f) hf
  inv h := by
    have narrow : (s.writeP v).NarrowIndexInv := fun hn => by
      have hx : getFlag (writtenP s.e v) .x = true := by
        cases he : s.e
        · simpa [State.indexIs8, State.flag, he] using hn
        · simp [getFlag_writtenP]
      simp [hx]
    refine ⟨fun he => ?_, narrow, h.memory⟩
    have hse : s.e = true := he
    obtain ⟨-, -, -, -, hs⟩ := h.emulation hse
    obtain ⟨hx, hy⟩ := narrow (by simp [State.indexIs8, hse])
    exact ⟨by simp [State.flag, getFlag_writtenP, hse], by simp [State.flag, getFlag_writtenP, hse], hx, hy, hs⟩

end Effect

/-! ### The effect of each pattern -/

section Patterns

variable {F : Field → Prop} {G : Flag → Prop} (s : State) (k : Cost)

theorem transferToX_effect (v : Word) : Effect F G s (transferToX v k s) :=
  (Effect.setX s rfl v).trans (.setNZ _ _ v) |>.trans (.finish _ _ _)

theorem transferToY_effect (v : Word) : Effect F G s (transferToY v k s) :=
  (Effect.setY s rfl v).trans (.setNZ _ _ v) |>.trans (.finish _ _ _)

theorem transferToC_effect (v : Word) : Effect F G s (transferToC v k s) :=
  (Effect.withC s v).trans (.setNZ _ _ v) |>.trans (.finish _ _ _)

theorem transferToAcc_effect (v : Word) : Effect F G s (transferToAcc v k s) :=
  (Effect.withC s (s.accWith s.wm v)).trans (.setNZ _ _ v) |>.trans (.finish _ _ _)

theorem exchangeBA_effect : Effect F G s (exchangeBA k s) :=
  (Effect.withC s _).trans (.setNZ _ _ _) |>.trans (.finish _ _ _)

theorem transferToS_effect (v : Word) : Effect F G s (transferToS v k s) :=
  (Effect.withS s v).trans (.finish _ _ _)

theorem transferToD_effect (hF : F .d) (v : Word) : Effect F G s (transferToD v k s) :=
  (Effect.ownFields s (d := v) (hd := .inl hF)).trans (.setNZ _ _ v) |>.trans (.finish _ _ _)

theorem pushByte_effect (v : Byte) : Effect F G s (pushByte v k s) :=
  (Effect.push8 s v).trans (.finish _ _ _)

theorem pushRegister_effect (w : Width) (v : Word) : Effect F G s (pushRegister w v k s) :=
  (Effect.pushW s w v).trans (.finish _ _ _)

theorem pushWord_effect (v : Word) (len : Nat) : Effect F G s (pushWord v len k s) :=
  (Effect.push16 s v).trans (.finish _ _ _)

theorem pushIndirect_effect (d : Byte) : Effect F G s (pushIndirect d k s) :=
  (Effect.withBus s (Bus.onlyRead_read2 _ _)).trans (.push16 _ _) |>.trans (.finish _ _ _)

theorem pullAcc_effect : Effect F G s (pullAcc k s) :=
  (Effect.pullW s s.wm).trans (.withC _ _) |>.trans (.setNZ _ _ _) |>.trans (.finish _ _ _)

/-- A pull leaves the index width as it is. -/
theorem State.wx_pullW (w : Width) : s.wx = (s.pullW w).st.wx := by
  simp [State.wx, State.indexIs8, State.flag]

theorem pullX_effect : Effect F G s (pullX k s) :=
  (Effect.pullW s s.wx).trans (.setX _ (s.wx_pullW _) _) |>.trans (.setNZ _ _ _) |>.trans (.finish _ _ _)

theorem pullY_effect : Effect F G s (pullY k s) :=
  (Effect.pullW s s.wx).trans (.setY _ (s.wx_pullW _) _) |>.trans (.setNZ _ _ _) |>.trans (.finish _ _ _)

theorem pullDataBank_effect (hF : F .dbr) : Effect F G s (pullDataBank k s) :=
  (Effect.pull8 s).trans (.ownFields _ (dbr := s.pull8.val) (hdbr := .inl hF)) |>.trans (.setNZ _ _ _)
    |>.trans (.finish _ _ _)

theorem pullDirect_effect (hF : F .d) : Effect F G s (pullDirect k s) :=
  (Effect.pull16 s).trans (.ownFields _ (d := s.pull16.val) (hd := .inl hF)) |>.trans (.setNZ _ _ _)
    |>.trans (.finish _ _ _)

theorem pullStatus_effect (hG : ∀ f, G f) : Effect F G s (pullStatus k s) :=
  (Effect.pull8 s).trans (.writeP _ hG _) |>.trans (.finish _ _ _)

theorem writeFlag_effect (b : Bool) {f : Flag} (hf : G f) (hm : f ≠ .m) (hx : f ≠ .x) :
    Effect F G s (writeFlag f b k s) := (Effect.setFlag s b hf hm hx).trans (.finish _ _ _)

theorem writeStatus_effect (hG : ∀ f, G f) (v : Byte) : Effect F G s (writeStatus v k s) :=
  (Effect.writeP s hG v).trans (.finish _ _ _)

theorem enterRunState_effect (hF : F .run) (r : RunState) : Effect F G s (enterRunState r k s) :=
  (Effect.ownFields s (run := r) (hrun := .inl hF)).trans (.finish _ _ _)

theorem branchLong_effect (r : Word) : Effect F G s (branchLong r k s) :=
  (Effect.withPc s _).trans (.addToCycles _ _)

theorem jump_effect (hF : F .pbr) (bank : Byte) (target : Word) : Effect F G s (jump bank target k s) :=
  (Effect.setProgramAddress s hF bank target).trans (.addToCycles _ _)

/-- A jump within the program bank leaves PBR alone. -/
theorem jump_pbr_effect (target : Word) : Effect F G s (jump s.pbr target k s) :=
  (Effect.withPc s target).trans (.addToCycles _ _)

theorem jumpThrough_effect (l : Loc) : Effect F G s (jumpThrough l k s) :=
  (Effect.withBus s (Bus.onlyRead_read2 _ l)).trans (.withPc _ _) |>.trans (.addToCycles _ _)

theorem jumpThroughLong_effect (hF : F .pbr) (l : Loc) : Effect F G s (jumpThroughLong l k s) :=
  (Effect.withBus s (Bus.onlyRead_read3 _ l)).trans (.setProgramAddress _ hF _ _) |>.trans (.addToCycles _ _)

theorem callAbs_effect (target : Word) : Effect F G s (callAbs target k s) :=
  (Effect.push16 s _).trans (.withPc _ target) |>.trans (.addToCycles _ _)

theorem callThrough_effect (a : Word) : Effect F G s (callThrough a k s) :=
  (Effect.push16 s _).trans (.withBus _ (Bus.onlyRead_read2 _ _)) |>.trans (.withPc _ _)
    |>.trans (.addToCycles _ _)

theorem callLong_effect (hF : F .pbr) (a : Address) : Effect F G s (callLong a k s) :=
  (Effect.push24 s _ _).trans (.setProgramAddress _ hF _ _) |>.trans (.addToCycles _ _)

theorem returnShort_effect : Effect F G s (returnShort k s) :=
  (Effect.pull16 s).trans (.withPc _ _) |>.trans (.addToCycles _ _)

theorem returnLong_effect (hF : F .pbr) : Effect F G s (returnLong k s) :=
  (Effect.pull16 s).trans (.pull8 _) |>.trans (.setProgramAddress _ hF _ _) |>.trans (.addToCycles _ _)

theorem blockMove_effect (hF : F .dbr) (next : Word → Word) (dd ss : Byte) :
    Effect F G s (blockMove next dd ss k s) := by
  have read := Bus.onlyRead_readByte s.bus (mkAddress ss s.xe)
  have moved : Effect F G s _ := Effect.ordinary s (c := s.c - 1) (sp := s.sp) (pc := s.pc) (cycles := s.cycles)
    (fun h _ => ⟨highByte_trunc_wx h (next s.xe), highByte_trunc_wx h (next s.ye)⟩) (fun _ h => h)
    (fun h => Bus.wf_storeByte (read.wf h) (mkAddress dd s.ye) (s.bus.readByte (mkAddress ss s.xe)).val)
  exact moved.trans (.ownFields _ (dbr := dd) (hdbr := .inl hF)) |>.trans (.finish _ _ _)

theorem pushInterruptFrame_effect : Effect F G s s.pushInterruptFrame := by
  unfold State.pushInterruptFrame
  split
  · exact (Effect.push16 s _).trans (.push8 _ _)
  · exact (Effect.push8 s _).trans (.push16 _ _) |>.trans (.push8 _ _)

theorem interruptEntry_effect (hF : F .pbr) (hd : G .d) (hi : G .i) (vector : Word) :
    Effect F G s (s.interruptEntry vector k) :=
  (pushInterruptFrame_effect s).trans (.setFlag _ true hi (by decide) (by decide))
    |>.trans (.setFlag _ false hd (by decide) (by decide)) |>.trans (.setProgramAddress _ hF _ _)
    |>.trans (.addToCycles _ _)

theorem pullReturnBank_effect : Effect F G s s.pullReturnBank.st := by
  unfold State.pullReturnBank
  split
  · exact .withPc s s.pc
  · exact .pull8 s

theorem interruptReturn_effect (hF : F .pbr) (hG : ∀ f, G f) : Effect F G s (s.interruptReturn k) :=
  (Effect.pull8 s).trans (.writeP _ hG _) |>.trans (.pull16 _) |>.trans (pullReturnBank_effect _)
    |>.trans (.setProgramAddress _ hF _ _) |>.trans (.addToCycles _ _)

theorem exchangeCE_p : (exchangeCE k s).p =
    if s.flag .c then putFlag .x true (putFlag .m true (putFlag .c s.e s.p)) else putFlag .c s.e s.p := rfl

/-- XCE into emulation mode writes all that the invariant asks; into native mode it asks less. -/
theorem exchangeCE_effect (he : F .e) (hm : G .m) (hx : G .x) (hc : G .c) : Effect F G s (exchangeCE k s) where
  fields f ho hf := by
    cases f with
    | e => exact absurd he hf
    | c | d | dbr | pbr | res | rdy | run | cfg => rfl
    | x | y | sp | pc | cycles => simp [ordinaryFields] at ho
  flags f _ _ hf := by
    have hfm : f ≠ .m := by rintro rfl; exact hf hm
    have hfx : f ≠ .x := by rintro rfl; exact hf hx
    have hfc : f ≠ .c := by rintro rfl; exact hf hc
    change getFlag (exchangeCE k s).p f = getFlag s.p f
    rw [exchangeCE_p]
    split <;> simp [getFlag_putFlag, hfm, hfx, hfc]
  inv h := by
    cases hcs : s.flag .c with
    | true =>
      have hp := (exchangeCE_p s k).trans (if_pos hcs)
      exact State.inv_of_emulation (by simp [State.flag, hp, getFlag_putFlag]) (by simp [State.flag, hp])
        (by simp [exchangeCE, hcs]) (by simp [exchangeCE, hcs]) (by simp [exchangeCE, hcs]) h.memory
    | false =>
      have hp := (exchangeCE_p s k).trans (if_neg (by simp [hcs]))
      have hn : (exchangeCE k s).e = false := hcs
      refine ⟨fun ht => by simp [hn] at ht, fun ht => ?_, h.memory⟩
      simp only [State.indexIs8, hn, State.flag, hp, Bool.false_or, getFlag_putFlag, reduceCtorEq, if_false] at ht
      simpa [exchangeCE, hcs] using h.narrow (by simp [State.indexIs8, State.flag, ht])

end Patterns

/-! ### The effect of every instruction -/

/-- The instructions without a shape, by pattern, each a writer of what its pattern writes. -/
theorem exec_other_effect {i : Instr} (hi : i.shape = .other) (s : State) :
    ∃ t, exec i s = .next t ∧ Effect (·.Writer i) (·.Writer i) s t := by
  cases i
  case tax | tsx | tyx | inx | dex => exact ⟨_, rfl, transferToX_effect _ _ _⟩
  case tay | txy | iny | dey => exact ⟨_, rfl, transferToY_effect _ _ _⟩
  case txa | tya => exact ⟨_, rfl, transferToAcc_effect _ _ _⟩
  case tsc | tdc => exact ⟨_, rfl, transferToC_effect _ _ _⟩
  case txs | tcs => exact ⟨_, rfl, transferToS_effect _ _ _⟩
  case tcd => exact ⟨_, rfl, transferToD_effect _ _ (.inl rfl) _⟩
  case xba => exact ⟨_, rfl, exchangeBA_effect _ _⟩
  case mvn => exact ⟨_, rfl, blockMove_effect _ _ (.inr ⟨_, _, .inl rfl⟩) _ _ _⟩
  case mvp => exact ⟨_, rfl, blockMove_effect _ _ (.inr ⟨_, _, .inr rfl⟩) _ _ _⟩
  case phb | phk | php => exact ⟨_, rfl, pushByte_effect _ _ _⟩
  case pha | phx | phy => exact ⟨_, rfl, pushRegister_effect _ _ _ _⟩
  case phd | pea | per => exact ⟨_, rfl, pushWord_effect _ _ _ _⟩
  case pei => exact ⟨_, rfl, pushIndirect_effect _ _ _⟩
  case pla => exact ⟨_, rfl, pullAcc_effect _ _⟩
  case plx => exact ⟨_, rfl, pullX_effect _ _⟩
  case ply => exact ⟨_, rfl, pullY_effect _ _⟩
  case plb => exact ⟨_, rfl, pullDataBank_effect _ _ (.inl rfl)⟩
  case pld => exact ⟨_, rfl, pullDirect_effect _ _ (.inr rfl)⟩
  case plp => exact ⟨_, rfl, pullStatus_effect _ _ (WholePWriter.writer (.inl rfl))⟩
  case rep => exact ⟨_, rfl, writeStatus_effect _ _ (WholePWriter.writer (.inr (.inr ⟨_, .inl rfl⟩))) _⟩
  case sep => exact ⟨_, rfl, writeStatus_effect _ _ (WholePWriter.writer (.inr (.inr ⟨_, .inr rfl⟩))) _⟩
  case clc | cld | cli | clv | sec | sed | sei =>
    exact ⟨_, rfl, writeFlag_effect _ _ _ (by simp [Flag.Writer]) (by decide) (by decide)⟩
  case xce => exact ⟨_, rfl, exchangeCE_effect _ _ rfl (.inr rfl) (.inr rfl) (by simp [Flag.Writer])⟩
  case wai => exact ⟨_, rfl, enterRunState_effect _ _ (.inl rfl) _⟩
  case stp => exact ⟨_, rfl, enterRunState_effect _ _ (.inr rfl) _⟩
  case nop | wdm => exact ⟨_, rfl, .finish _ _ _⟩
  case brl => exact ⟨_, rfl, branchLong_effect _ _ _⟩
  case jmpJabs => exact ⟨_, rfl, jump_pbr_effect _ _ _⟩
  case jmpIabs | jmpIabsx => exact ⟨_, rfl, jumpThrough_effect _ _ _⟩
  case jmlJlong => exact ⟨_, rfl, jump_effect _ _ (by simp [Field.Writer]) _ _⟩
  case jmlIlabs => exact ⟨_, rfl, jumpThroughLong_effect _ _ (by simp [Field.Writer]) _⟩
  case jsrJabs => exact ⟨_, rfl, callAbs_effect _ _ _⟩
  case jsrIabsx => exact ⟨_, rfl, callThrough_effect _ _ _⟩
  case jsl => exact ⟨_, rfl, callLong_effect _ _ (by simp [Field.Writer]) _⟩
  case rts => exact ⟨_, rfl, returnShort_effect _ _⟩
  case rtl => exact ⟨_, rfl, returnLong_effect _ _ (.inl rfl)⟩
  case brk | cop =>
    exact ⟨_, rfl, interruptEntry_effect _ _ (by simp [Field.Writer]) (by simp [Flag.Writer, InterruptWriter])
      (by simp [Flag.Writer, InterruptWriter]) _⟩
  case rti => exact ⟨_, rfl, interruptReturn_effect _ _ (.inr (.inl rfl)) (WholePWriter.writer (.inr (.inl rfl)))⟩
  all_goals cases hi

/-- An instruction with a shape writes ordinary fields, and beside N and Z the flags V and C at most; an
index register it loads gets a value of the index width. -/
theorem exec_shape_effect {i : Instr} (hi : i.shape ≠ .other) (s : State) :
    ∃ t, exec i s = .next t ∧ Effect (·.Writer i) (·.Writer i) s t := by
  have kept := i.shape.run_fields i.tableCost s
  have flags := i.shape.run_flags i.tableCost s
  have sums (h : ¬SumWriter i) (o : Operand) : i.shape ≠ .acc .adc o ∧ i.shape ≠ .acc .sbc o :=
    ⟨fun e => h ⟨o, .inl e⟩, fun e => h ⟨o, .inr e⟩⟩
  refine ⟨_, exec_of_shape rfl hi s, fun f ho _ => kept f fun hf => ho ?_,
    fun f hn hz hf => flags f ⟨hn, hz⟩ ?_ ?_, fun h => ?_⟩
  · exact (by decide : ∀ f ∈ [Field.c, .x, .y, .pc, .cycles], f ∈ ordinaryFields) f hf
  · rintro rfl
    simp only [Flag.Writer, not_or] at hf
    obtain ⟨-, hsum, -, hbit⟩ := hf
    exact ⟨sums hsum, fun m e => hbit ⟨m, e⟩⟩
  · rintro rfl
    simp only [Flag.Writer, not_or] at hf
    obtain ⟨-, hsum, hshift, -, -, -, hcompare⟩ := hf
    exact ⟨sums hsum, fun r o e => hcompare ⟨r, o, e⟩, fun op hop =>
      ⟨fun e => hshift ⟨op, hop, .inl e⟩, fun m e => hshift ⟨op, hop, .inr ⟨m, e⟩⟩⟩⟩
  · refine h.of_kept (kept .e (by decide)) (flags .m (by decide) nofun nofun) (flags .x (by decide) nofun nofun)
      (fun hn hxy => ?_) (fun _ hs => (congrArg highByte (kept .sp (by decide))).trans hs) (i.shape.run_wf _)
    cases i.shape with
    | loadX o => exact ⟨highByte_trunc_wx hn _, hxy.2⟩
    | loadY o => exact ⟨hxy.1, highByte_trunc_wx hn _⟩
    | _ => exact hxy

theorem exec_effect {i : Instr} {s t : State} (h : exec i s = .next t) :
    Effect (·.Writer i) (·.Writer i) s t := by
  obtain ⟨t', h', effect⟩ : ∃ t, exec i s = .next t ∧ Effect (·.Writer i) (·.Writer i) s t := by
    by_cases hi : i.shape = .other
    · exact exec_other_effect hi s
    · exact exec_shape_effect hi s
  cases h.symm.trans h'
  exact effect

/-! ### The step and reset -/

/-- A fetch keeps the invariant. -/
theorem State.Inv.fetch {s : State} (h : s.Inv) : s.fetch.st.Inv :=
  ⟨h.emulation, h.narrow, s.onlyRead_fetch.wf h.memory⟩

theorem step_inv {s t : State} (hs : s.Inv) (h : step s = .next t) : t.Inv := by
  by_cases he : s.Executing
  · exact (exec_effect (step_of_executing he ▸ h)).inv hs.fetch
  · cases h.symm.trans (step_of_not_executing he)
    exact hs

theorem highByte_stackReset (k : Config) : highByte k.stackReset = 0x01 :=
  highByte_joinBytes 0x01 k.stackResetLow

theorem State.inv_performReset {s : State} (h : s.bus.wf) : s.performReset.Inv :=
  inv_of_emulation (by simp [flag, getFlag_putFlag]) (by simp [flag]) (highByte_trunc_w8 s.x)
    (highByte_trunc_w8 s.y) (highByte_stackReset s.cfg) h

/-! ### The statements -/

/-- Settles O14: every instruction's effect keeps the invariant, and so do the fetch and a step that does
nothing; reset writes what the invariant asks. -/
theorem stepKeepsInvariant : Obligations.StepKeepsInvariant :=
  ⟨fun _ _ hs h => step_inv hs h, fun _ h => State.inv_performReset h⟩

/-- Settles O15: a field that changes and is not ordinary has the instruction among its writers. -/
theorem onlyTheirInstructionsWriteModeAndBanks : Obligations.OnlyTheirInstructionsWriteModeAndBanks := by
  intro i s t h
  have kept {f : Field} (ho : f ∉ ordinaryFields) : ¬f.Writer i → f.Same s t := (exec_effect h).fields f ho
  have writer {f : Field} (ho : f ∉ ordinaryFields) : ¬f.Same s t → f.Writer i := not_imp_comm.mp (kept ho)
  exact ⟨writer (f := .e) (by decide), writer (f := .d) (by decide), writer (f := .dbr) (by decide),
    writer (f := .pbr) (by decide), writer (f := .run) (by decide), kept (f := .res) (by decide) id,
    kept (f := .rdy) (by decide) id, kept (f := .cfg) (by decide) id⟩

/-- Settles O16: a flag that changes, N and Z aside, has the instruction among its writers. -/
theorem onlyTheirInstructionsWriteFlags : Obligations.OnlyTheirInstructionsWriteFlags := by
  intro i s t h
  have writer {f : Flag} (hn : f ≠ .n) (hz : f ≠ .z) : t.flag f ≠ s.flag f → f.Writer i :=
    not_imp_comm.mp ((exec_effect h).flags f hn hz)
  exact ⟨writer (by decide) (by decide), writer (by decide) (by decide), writer (by decide) (by decide),
    writer (by decide) (by decide), writer (by decide) (by decide), writer (by decide) (by decide)⟩

/-- Settles O10, field by field. -/
theorem resetWritesItsValues : Obligations.ResetWritesItsValues := by
  intro s t
  have low (v : Word) : (Width.w8.trunc v).toNat = v.toNat % 256 := Width.trunc_toNat .w8 v
  refine ⟨rfl, by simp [t, State.flag, getFlag_putFlag], by simp [t, State.flag], low s.x, low s.y, rfl, rfl,
    highByte_stackReset s.cfg, rfl, rfl, rfl, fun f hf => ?_, fun f hf => ?_, rfl⟩
  · cases f <;> first | rfl | simp at hf
  · simp only [List.mem_cons, List.not_mem_nil, or_false, not_or] at hf
    simp [t, State.flag, getFlag_putFlag, hf]

end Sys2Proof.Machine

/-! SUPPORT. Two runs that differ in what nothing reads: the RDY pin, the cycle counter, and the configuration
but for the vectors of BRK and COP (10_state.md R42, R44, R46, R47). -/

namespace Sys2Proof.Machine

/-- The state with other values of what no instruction and no fetch reads. -/
def State.withUnread (s : State) (ready : Bool) (n : Int) (k : Config) : State :=
  { s with rdy := ready, cycles := n, cfg := k }

/-- Two configurations give BRK and COP the same vectors in both modes. -/
structure SameVectors (k k' : Config) : Prop where
  copE : k.vecE.cop = k'.vecE.cop
  brkE : k.vecE.irqbrk = k'.vecE.irqbrk
  copN : k.vecN.cop = k'.vecN.cop
  brkN : k.vecN.brk = k'.vecN.brk

/-- From `s` one run comes to `t`, and the run with the unread values `ready`, `n` and `k` comes to `t'`:
the same state in the same number of cycles, with the same unread values but for the counter. -/
def SameRun (ready : Bool) (n : Int) (k : Config) (s t t' : State) : Prop :=
  ∃ d : Nat, t.cycles = s.cycles + d ∧ t' = t.withUnread ready (n + d) k

section SameRun

variable (ready : Bool) (n : Int) (k : Config) (s : State)

theorem Shape.run_sameRun (sh : Shape) (c : Cost) :
    SameRun ready n k s (sh.run c s) (sh.run c (s.withUnread ready n k)) := by
  cases sh
  case other => exact ⟨0, (add_zero _).symm, by simp [Shape.run]⟩
  all_goals exact ⟨_, rfl, rfl⟩

theorem State.pushW_withUnread (w : Width) (v : Word) :
    (s.withUnread ready n k).pushW w v = (s.pushW w v).withUnread ready n k := by cases w <;> rfl

theorem State.pullW_withUnread (w : Width) :
    (s.withUnread ready n k).pullW w = ⟨(s.pullW w).val, (s.pullW w).st.withUnread ready n k⟩ := by
  cases w <;> rfl

theorem State.pushInterruptFrame_withUnread :
    (s.withUnread ready n k).pushInterruptFrame = s.pushInterruptFrame.withUnread ready n k := by
  have he : (s.withUnread ready n k).e = s.e := rfl
  simp only [pushInterruptFrame, he]
  split <;> rfl

variable {ready n k s}

theorem pushRegister_sameRun (w : Width) (v : Word) (c : Cost) :
    SameRun ready n k s (pushRegister w v c s) (pushRegister w v c (s.withUnread ready n k)) := by
  cases w <;> exact ⟨_, rfl, rfl⟩

/-- A pull at a width, and a use of the pulled value that reads and writes no unread value. -/
theorem pull_sameRun (w : Width) (use : State → Word → State) (cyc : Nat)
    (hu : ∀ u v m, use (u.withUnread ready m k) v = (use u v).withUnread ready m k)
    (hc : ∀ u v, (use u v).cycles = u.cycles) :
    SameRun ready n k s ((use (s.pullW w).st (s.pullW w).val).finish 1 cyc)
      ((use ((s.withUnread ready n k).pullW w).st ((s.withUnread ready n k).pullW w).val).finish 1 cyc) := by
  refine ⟨cyc, by simp [hc], ?_⟩
  rw [State.pullW_withUnread, hu]
  rfl

theorem interruptEntry_sameRun {v v' : Word} (hv : v' = v) (c : Cost) :
    SameRun ready n k s (s.interruptEntry v c) ((s.withUnread ready n k).interruptEntry v' c) := by
  rw [hv, State.interruptEntry_eq, State.interruptEntry_eq, State.pushInterruptFrame_withUnread]
  exact ⟨_, rfl, rfl⟩

theorem interruptReturn_sameRun (c : Cost) :
    SameRun ready n k s (s.interruptReturn c) ((s.withUnread ready n k).interruptReturn c) := by
  rw [State.interruptReturn_eq, State.interruptReturn_eq]
  exact ⟨_, rfl, rfl⟩

theorem brkVector_withUnread (h : SameVectors k s.cfg) : (s.withUnread ready n k).brkVector = s.brkVector := by
  simp [State.brkVector, State.withUnread, h.brkE, h.brkN]

theorem copVector_withUnread (h : SameVectors k s.cfg) : (s.withUnread ready n k).copVector = s.copVector := by
  simp [State.copVector, State.withUnread, h.copE, h.copN]

/-- The widths, the interrupt frame and the return need a case each; every other meaning computes with
the fields the two runs share. -/
theorem exec_other_sameRun (hk : SameVectors k s.cfg) {i : Instr} (hi : i.shape = .other) :
    ∃ t t', exec i s = .next t ∧ exec i (s.withUnread ready n k) = .next t' ∧ SameRun ready n k s t t' := by
  cases i
  case brk => exact ⟨_, _, rfl, rfl, interruptEntry_sameRun (brkVector_withUnread hk) _⟩
  case cop => exact ⟨_, _, rfl, rfl, interruptEntry_sameRun (copVector_withUnread hk) _⟩
  case rti => exact ⟨_, _, rfl, rfl, interruptReturn_sameRun _⟩
  case pha | phx | phy => exact ⟨_, _, rfl, rfl, pushRegister_sameRun _ _ _⟩
  case pla =>
    exact ⟨_, _, rfl, rfl, pull_sameRun s.wm (fun u v => (u.setAcc s.wm v).setNZ s.wm v) _
      (fun _ _ _ => rfl) (fun _ _ => rfl)⟩
  case plx =>
    exact ⟨_, _, rfl, rfl, pull_sameRun s.wx (fun u v => (u.setX s.wx v).setNZ s.wx v) _
      (fun _ _ _ => rfl) (fun _ _ => rfl)⟩
  case ply =>
    exact ⟨_, _, rfl, rfl, pull_sameRun s.wx (fun u v => (u.setY s.wx v).setNZ s.wx v) _
      (fun _ _ _ => rfl) (fun _ _ => rfl)⟩
  all_goals cases hi
  all_goals exact ⟨_, _, rfl, rfl, _, rfl, rfl⟩

theorem exec_sameRun (hk : SameVectors k s.cfg) (i : Instr) :
    ∃ t t', exec i s = .next t ∧ exec i (s.withUnread ready n k) = .next t' ∧ SameRun ready n k s t t' := by
  by_cases hi : i.shape = .other
  · exact exec_other_sameRun hk hi
  · exact ⟨_, _, exec_of_shape rfl hi _, exec_of_shape rfl hi _, Shape.run_sameRun ..⟩

theorem step_sameRun (hk : SameVectors k s.cfg) :
    ∃ t t', step s = .next t ∧ step (s.withUnread ready n k) = .next t' ∧ SameRun ready n k s t t' := by
  by_cases he : s.Executing
  · have he' : (s.withUnread ready n k).Executing := he
    rw [step_of_executing he, step_of_executing he']
    exact exec_sameRun (s := s.fetch.st) hk s.fetch.val
  · have he' : ¬(s.withUnread ready n k).Executing := he
    exact ⟨_, _, step_of_not_executing he, step_of_not_executing he', 0, (add_zero _).symm, by simp⟩

end SameRun

/-- Settles O19: the two runs' steps agree but for the unread values. -/
theorem unreadInputsDoNotMatter : Obligations.UnreadInputsDoNotMatter := by
  intro s ready n k hcopE hbrkE hcopN hbrkN
  obtain ⟨t, _, ht, ht', d, hd, rfl⟩ := step_sameRun (ready := ready) (n := n) (k := k) (s := s)
    ⟨hcopE, hbrkE, hcopN, hbrkN⟩
  refine ⟨t, ht, ?_⟩
  rw [hd, add_sub_cancel_left]
  exact ht'

end Sys2Proof.Machine

/-! SUPPORT. Which device answers an address, and the bus operations of one, two and three bytes
(20_memory.md R71, R77, R78, R80 to R86, R102). -/

namespace Sys2Proof.Machine

/-! ### Address arithmetic -/

@[simp] theorem bankOf_addOffset (a : Address) (k : Nat) : bankOf (addOffset a k) = bankOf a :=
  bankOf_mkAddress _ _

@[simp] theorem offsetOf_addOffset (a : Address) (k : Nat) :
    offsetOf (addOffset a k) = offsetOf a + BitVec.ofNat 16 k :=
  offsetOf_mkAddress _ _

theorem offsetOf_addOffset_toNat (a : Address) (k : Nat) :
    (offsetOf (addOffset a k)).toNat = ((offsetOf a).toNat + k) % 2 ^ 16 := by
  rw [offsetOf_addOffset, BitVec.toNat_add, BitVec.toNat_ofNat, Nat.add_mod_mod]

/-! ### Where no device answers -/

theorem Bus.storeTwoBytes_unclaimed {b : Bus} {a : Address} (h : b.resolve a = none) (v : Word) :
    b.storeTwoBytes a v = b := by simp [storeTwoBytes, h]

theorem Bus.readTwoBytes_unclaimed {b : Bus} {a : Address} (h : b.resolve a = none) :
    b.readTwoBytes a = { val := 0x0000, bus := b } := by simp [readTwoBytes, h]

theorem Bus.readAddressAt_unclaimed {b : Bus} {a : Address} (h : b.resolve a = none) :
    b.readAddressAt a = { val := zeroAddress, bus := b } := by simp [readAddressAt, h]

/-! ### Where a device answers -/

section Claimed

variable {b : Bus} {a : Address} {c : Claim} (h : b.resolve a = some c)
include h

theorem Bus.storeTwoBytes_claimed (v : Word) :
    b.storeTwoBytes a v = b.setDevice c.index
      ((c.dev.store c.loc (lowByte v)).store (addOffset c.loc 1) (highByte v)) := by
  simp only [storeTwoBytes, h]

/-- The second byte is read from the device in the state its first read left. -/
theorem Bus.readTwoBytes_claimed :
    let lo := c.dev.read c.loc
    let hi := lo.dev.read (addOffset c.loc 1)
    b.readTwoBytes a = { val := joinBytes hi.val lo.val, bus := b.setDevice c.index hi.dev } := by
  simp only [readTwoBytes, h]

theorem Bus.readAddressAt_claimed :
    let lo := c.dev.read c.loc
    let hi := lo.dev.read (addOffset c.loc 1)
    let bk := hi.dev.read (addOffset c.loc 2)
    b.readAddressAt a =
      { val := mkAddress bk.val (joinBytes hi.val lo.val), bus := b.setDevice c.index bk.dev } := by
  simp only [readAddressAt, h]

end Claimed

/-! ### The statements -/

/-- Settles O20: the laws of the scan, each an induction on the list of devices. -/
theorem firstRegisteredDeviceWins : Obligations.FirstRegisteredDeviceWins :=
  ⟨fun _ _ _ h => resolveIn_spec h, fun _ _ => resolveIn_none, fun b d a => resolveIn_append b.devices d a⟩

/-- Settles O21: the operations' values where a device answers and where none does, with the bytes of a
composed word and address as numbers. -/
theorem wideBusOperationsDecodeOnce : Obligations.WideBusOperationsDecodeOnce := by
  refine ⟨fun b a v c h => ⟨Bus.storeTwoBytes_claimed h v, ?_⟩, fun b a v h => ?_, fun l k => ?_⟩
  · intro lo hi bk
    have word : (joinBytes hi.val lo.val).toNat = hi.val.toNat * 0x100 + lo.val.toNat := joinBytes_toNat _ _
    rw [Bus.readTwoBytes_claimed h, Bus.readAddressAt_claimed h]
    exact ⟨word, rfl, bankOf_mkAddress _ _, (congrArg BitVec.toNat (offsetOf_mkAddress _ _)).trans word, rfl⟩
  · exact ⟨Bus.storeTwoBytes_unclaimed h v, Bus.readTwoBytes_unclaimed h, Bus.readAddressAt_unclaimed h⟩
  · exact ⟨bankOf_addOffset l k, offsetOf_addOffset_toNat l k⟩

/-- Settles O22: the laws of one byte's store and read. -/
theorem storedByteReadsBack : Obligations.StoredByteReadsBack :=
  ⟨fun _ _ v hb h => h.peek_storeByte hb v, fun b _ _ v hc => b.peek_storeByte_ne hc v,
    fun _ _ v h => ⟨Bus.storeByte_unclaimed h v, Bus.readByte_unclaimed h⟩,
    fun _ _ _ h => Bus.readByte_of_peek h, fun b a c => b.peek_readByte a c⟩

end Sys2Proof.Machine

/-! SUPPORT. The encoding: the decoder and the encoder undo each other, the widths of immediates, and the
regularities of the opcode map (30_encoding.md R121, R124, R129 to R131). -/

namespace Sys2Proof

open Sys2Proof.Machine

/-! ### Immediates -/

/-- The value of an immediate's operand bytes: an absent second byte is 0 (R124). -/
def immediateValue (args : List Byte) : Word := joinBytes (args.getD 1 0) (args.getD 0 0)

/-- An immediate's operand bytes: one when narrow, two when wide (R124). -/
def immediateBytes (narrow : Bool) (v : Word) : List Byte :=
  if narrow then [lowByte v] else [lowByte v, highByte v]

theorem joinBytes_eq_ofNat (hi lo : Byte) : joinBytes hi lo = BitVec.ofNat 16 (lo.toNat + 0x100 * hi.toNat) := by
  have := joinBytes_toNat hi lo
  apply BitVec.eq_of_toNat_eq
  rw [BitVec.toNat_ofNat]
  omega

theorem immediateValue_singleton (b1 : Byte) : immediateValue [b1] = BitVec.ofNat 16 b1.toNat :=
  joinBytes_eq_ofNat 0 b1

theorem immediateValue_pair (b1 b2 : Byte) :
    immediateValue [b1, b2] = BitVec.ofNat 16 (b1.toNat + 0x100 * b2.toNat) :=
  joinBytes_eq_ofNat b2 b1

theorem immediateBytes_immediateValue {narrow : Bool} {args : List Byte}
    (h : args.length = if narrow then 1 else 2) : immediateBytes narrow (immediateValue args) = args := by
  cases narrow with
  | true =>
    obtain ⟨b1, rfl⟩ := List.length_eq_one_iff.mp h
    simp [immediateBytes, immediateValue]
  | false =>
    obtain ⟨b1, b2, rfl⟩ := List.length_eq_two.mp h
    simp [immediateBytes, immediateValue]

theorem immediateFits_immediateValue {narrow : Bool} {args : List Byte}
    (h : args.length = if narrow then 1 else 2) : immediateFits narrow (immediateValue args) = true := by
  cases narrow with
  | true =>
    obtain ⟨b1, rfl⟩ := List.length_eq_one_iff.mp h
    simp [immediateFits, immediateValue, joinBytes_toNat, b1.isLt]
  | false => rfl

/-! ### Operands and the entries that read them -/

/-- The operands an entry reads from its operand bytes, as `Entry.build` does. -/
def Entry.operands (e : Entry) (args : List Byte) : Operands :=
  let b1 := args.getD 0 0
  let b2 := args.getD 1 0
  let b3 := args.getD 2 0
  match e with
  | .none _ => .none
  | .byte _ => .byte b1
  | .word _ => .word (joinBytes b2 b1)
  | .long _ => .long (mkAddress b3 (joinBytes b2 b1))
  | .immM _ => .immM (immediateValue args)
  | .immX _ => .immX (immediateValue args)
  | .blk _  => .blk b1 b2

/-- The operands have operand bytes at the given widths. -/
def Operands.fits (m8 x8 : Bool) (o : Operands) : Bool :=
  match o with
  | .immM v => immediateFits m8 v
  | .immX v => immediateFits x8 v
  | .none | .byte _ | .word _ | .long _ | .blk _ _ => true

theorem Instr.wf_eq_fits (m8 x8 : Bool) (i : Instr) : i.wf m8 x8 = i.encoded.2.fits m8 x8 := by
  cases i <;> rfl

section EntryLaws

variable {m8 x8 : Bool} {e : Entry} {args : List Byte} (h : args.length = e.operandCount m8 x8)
include h

theorem Entry.bytes_operands : (e.operands args).bytes m8 x8 = args := by
  cases e with
  | none i => exact (List.length_eq_zero_iff.mp h).symm
  | byte f =>
    obtain ⟨b1, rfl⟩ := List.length_eq_one_iff.mp h
    rfl
  | word f =>
    obtain ⟨b1, b2, rfl⟩ := List.length_eq_two.mp h
    simp [operands, Operands.bytes]
  | long f =>
    obtain ⟨b1, b2, b3, rfl⟩ := List.length_eq_three.mp h
    simp [operands, Operands.bytes]
  | immM f => exact immediateBytes_immediateValue h
  | immX f => exact immediateBytes_immediateValue h
  | blk f =>
    obtain ⟨b1, b2, rfl⟩ := List.length_eq_two.mp h
    rfl

theorem Entry.fits_operands : (e.operands args).fits m8 x8 = true := by
  cases e with
  | immM f => exact immediateFits_immediateValue h
  | immX f => exact immediateFits_immediateValue h
  | _ => rfl

end EntryLaws

theorem Entry.operandCount_le_three (m8 x8 : Bool) (e : Entry) : e.operandCount m8 x8 ≤ 3 := by
  cases e with
  | immM f => cases m8 <;> simp [operandCount]
  | immX f => cases x8 <;> simp [operandCount]
  | _ => simp [operandCount]

/-- An entry with one operand count at the widest and the narrowest widths has it at every width. -/
theorem Entry.operandCount_eq {e : Entry} (h : e.operandCount false false = e.operandCount true true)
    (m8 x8 : Bool) : e.operandCount m8 x8 = e.operandCount true true := by
  cases e with
  | immM f => cases h
  | immX f => cases h
  | _ => rfl

/-! ### The opcode map -/

/-- The entries, from opcode `n` on, make of any operand bytes an instruction that the encoder gives the
entry's opcode and operands. -/
def EncodesFrom (n : Nat) (es : List Entry) : Prop :=
  ∀ args, es.map (fun e => (e.build args).encoded)
    = (es.zipIdx n).map fun p => (BitVec.ofNat 8 p.2, p.1.operands args)

/-- A row of sixteen entries, then the rest of the map. -/
theorem EncodesFrom.append {n : Nat} {row es : List Entry} (hl : row.length = 16) (hrow : EncodesFrom n row)
    (h : EncodesFrom (n + 16) es) : EncodesFrom n (row ++ es) := by
  intro args
  rw [List.map_append, List.zipIdx_append, List.map_append, hl, hrow args, h args]

/-- The encoder's table agrees with the opcode map, row by row. -/
theorem encodesFrom_opcodeMap : EncodesFrom 0 opcodeMap := by
  simp only [opcodeMap, List.append_assoc]
  iterate 15 refine EncodesFrom.append rfl (fun _ => rfl) ?_
  exact fun _ => rfl

theorem opcodeMap_getElem? (op : Byte) : opcodeMap[op.toNat]? = some (opcodeEntry op) :=
  List.getElem?_eq_getElem _

theorem encoded_decodeInstr (op : Byte) (args : List Byte) :
    (decodeInstr op args).encoded = (op, (opcodeEntry op).operands args) := by
  simpa [decodeInstr, opcodeMap_getElem?] using congrArg (·[op.toNat]?) (encodesFrom_opcodeMap args)

/-- Only the 12 immediate opcodes have another operand count at the wide widths than at the narrow ones. -/
theorem operandCount_wide_eq_narrow {op : Byte}
    (h : op ∉ [(0x09 : Byte), 0x29, 0x49, 0x69, 0x89, 0xA9, 0xC9, 0xE9, 0xA0, 0xA2, 0xC0, 0xE0]) :
    operandCount false false op = operandCount true true op := by
  have entries : ∀ p ∈ opcodeMap.zipIdx,
      p.1.operandCount false false ≠ p.1.operandCount true true → BitVec.ofNat 8 p.2 ∈
        [(0x09 : Byte), 0x29, 0x49, 0x69, 0x89, 0xA9, 0xC9, 0xE9, 0xA0, 0xA2, 0xC0, 0xE0] := by decide +kernel
  have entry : (opcodeEntry op, op.toNat) ∈ opcodeMap.zipIdx :=
    List.mem_zipIdx_iff_getElem?.mpr (opcodeMap_getElem? op)
  by_contra differ
  exact h (by simpa using entries _ entry differ)

open Laws.EncodedForm in
/-- The opcode's entry rebuilds every instruction: the lemmas of the instructions, in constructor order. -/
theorem encodedForm (i : Instr) : Statement i :=
  i.rec (motive := Statement)
    brk oraIdpx cop oraSr tsbDp oraDp aslDp oraIldp oraImm tsbAbs oraAbs aslAbs oraLong bpl oraIdpy oraIdp
    oraIsry trbDp oraDpx aslDpx oraIldpy oraAbsy trbAbs oraAbsx aslAbsx oraLongx jsrJabs andIdpx jsl andSr
    bitDp andDp rolDp andIldp andImm bitAbs andAbs rolAbs andLong bmi andIdpy andIdp andIsry bitDpx andDpx
    rolDpx andIldpy andAbsy bitAbsx andAbsx rolAbsx andLongx eorIdpx wdm eorSr mvp eorDp lsrDp eorIldp
    eorImm jmpJabs eorAbs lsrAbs eorLong bvc eorIdpy eorIdp eorIsry mvn eorDpx lsrDpx eorIldpy eorAbsy
    jmlJlong eorAbsx lsrAbsx eorLongx adcIdpx per adcSr stzDp adcDp rorDp adcIldp adcImm jmpIabs adcAbs
    rorAbs adcLong bvs adcIdpy adcIdp adcIsry stzDpx adcDpx rorDpx adcIldpy adcAbsy jmpIabsx adcAbsx
    rorAbsx adcLongx bra staIdpx brl staSr styDp staDp stxDp staIldp bitImm styAbs staAbs stxAbs staLong
    bcc staIdpy staIdp staIsry styDpx staDpx stxDpy staIldpy staAbsy stzAbs staAbsx stzAbsx staLongx
    ldyImm ldaIdpx ldxImm ldaSr ldyDp ldaDp ldxDp ldaIldp ldaImm ldyAbs ldaAbs ldxAbs ldaLong bcs ldaIdpy
    ldaIdp ldaIsry ldyDpx ldaDpx ldxDpy ldaIldpy ldaAbsy ldyAbsx ldaAbsx ldxAbsy ldaLongx cpyImm cmpIdpx
    rep cmpSr cpyDp cmpDp decDp cmpIldp cmpImm cpyAbs cmpAbs decAbs cmpLong bne cmpIdpy cmpIdp cmpIsry pei
    cmpDpx decDpx cmpIldpy cmpAbsy jmlIlabs cmpAbsx decAbsx cmpLongx cpxImm sbcIdpx sep sbcSr cpxDp sbcDp
    incDp sbcIldp sbcImm cpxAbs sbcAbs incAbs sbcLong beq sbcIdpy sbcIdp sbcIsry pea sbcDpx incDpx
    sbcIldpy sbcAbsy jsrIabsx sbcAbsx incAbsx sbcLongx php aslAcc phd clc incAcc tcs plp rolAcc pld sec
    decAcc tsc rti pha lsrAcc phk cli phy tcd rts pla rorAcc rtl sei ply tdc dey txa phb tya txs txy tay
    tax plb clv tsx tyx iny dex wai cld phx stp inx nop xba sed plx xce

/-! ### The decoder -/

theorem decode_of_le {m8 x8 : Bool} {op : Byte} {args : List Byte} (h : operandCount m8 x8 op ≤ args.length) :
    decode m8 x8 (op :: args) = .ok
      (decodeInstr op (args.take (operandCount m8 x8 op)), args.drop (operandCount m8 x8 op)) := by
  simp only [decode, if_neg (Nat.not_lt.mpr h)]

/-- What the decoder answers, it makes of an opcode byte and the operand bytes its entry counts, and no
other bytes. -/
theorem decode_eq_ok_iff {m8 x8 : Bool} {bytes rest : List Byte} {i : Instr} :
    decode m8 x8 bytes = .ok (i, rest) ↔ ∃ op args, args.length = operandCount m8 x8 op ∧
      bytes = op :: (args ++ rest) ∧ decodeInstr op args = i := by
  constructor
  · intro h
    cases bytes with
    | nil => cases h
    | cons op tail =>
      by_cases hn : operandCount m8 x8 op ≤ tail.length
      · cases (decode_of_le hn).symm.trans h
        exact ⟨op, _, List.length_take_of_le hn, by rw [List.take_append_drop], rfl⟩
      · simp [decode, Nat.lt_of_not_le hn] at h
  · rintro ⟨op, args, hn, rfl, rfl⟩
    rw [decode_of_le (by simp [← hn]), ← hn, List.take_left, List.drop_left]

/-- An immediate at widths where its opcode has one operand byte, and at widths where it has two. -/
theorem decode_immediate {op : Byte} {mk : Word → Instr} {m8 x8 m8' x8' : Bool}
    (h : ∀ args, decodeInstr op args = mk (immediateValue args)) (narrow : operandCount m8 x8 op = 1)
    (wide : operandCount m8' x8' op = 2) (b1 b2 : Byte) (rest : List Byte) :
    decode m8 x8 (op :: b1 :: rest) = .ok (mk (BitVec.ofNat 16 b1.toNat), rest) ∧
      decode m8' x8' (op :: b1 :: b2 :: rest)
        = .ok (mk (BitVec.ofNat 16 (b1.toNat + 0x100 * b2.toNat)), rest) :=
  ⟨decode_eq_ok_iff.mpr ⟨op, [b1], narrow.symm, rfl, by rw [h, immediateValue_singleton]⟩,
    decode_eq_ok_iff.mpr ⟨op, [b1, b2], wide.symm, rfl, by rw [h, immediateValue_pair]⟩⟩

/-! ### The regularities of the opcode map -/

/-- The opcode R131 gives a shape; `own` where it gives none. -/
def Machine.Shape.regularOpcode (sh : Shape) (own : Nat) : Option Nat :=
  match sh with
  | .acc op o     => o.groupOffset.map (op.groupBase + ·)
  | .store .a m   => (Operand.mem m).groupOffset.map (0x80 + ·)
  | .compare .a o => o.groupOffset.map (0xC0 + ·)
  | .modify op m  => op.groupBase.elim (some own) fun g => m.shiftOffset.map (g + ·)
  | .modifyA op   => some (op.groupBase.elim own (· + 0x0A))
  | .loadX _ | .loadY _ | .compare _ _ | .bit _ | .store _ _ | .branch _ _ | .other => some own

theorem regularOpcode_shape (i : Instr) : i.shape.regularOpcode i.opcode.toNat = some i.opcode.toNat := by
  cases i <;> rfl

/-! ### The statements -/

/-- Settles O1, word by word. -/
theorem sampleWordsDecode : Obligations.SampleWordsDecode :=
  ⟨rfl, rfl, rfl, rfl, rfl, rfl, rfl, rfl, rfl, rfl, rfl, rfl, rfl, rfl, rfl⟩

/-- Settles O2: the opcode's entry counts the operand bytes and rebuilds the instruction from them. -/
theorem decodeOfEncode : Obligations.DecodeOfEncode := by
  intro i m8 x8 rest hwf
  obtain ⟨hcount, hbuild⟩ := encodedForm i m8 x8 hwf
  exact decode_eq_ok_iff.mpr ⟨i.opcode, i.encoded.2.bytes m8 x8, hcount.symm, rfl, hbuild⟩

/-- Settles O3: the encoder gives a decoded instruction the opcode byte and the operands it was read from. -/
theorem encodeOfDecode : Obligations.EncodeOfDecode := by
  intro m8 x8 bytes rest i h
  obtain ⟨op, args, hn, rfl, rfl⟩ := decode_eq_ok_iff.mp h
  have encoded := encoded_decodeInstr op args
  constructor
  · rw [Instr.wf_eq_fits, encoded]
    exact Entry.fits_operands hn
  · rw [encode, Instr.opcode, encoded, Entry.bytes_operands hn, List.cons_append]

/-- Settles O4: the entries of the listed opcodes, and the operand counts of the formats. -/
theorem immediateWidths : Obligations.ImmediateWidths := by
  refine ⟨fun op mk h x8 b1 b2 rest => ?_, fun op mk h m8 b1 b2 rest => ?_, fun m8 x8 m8' x8' op =>
    ⟨Entry.operandCount_le_three m8 x8 _, fun h => ?_, fun h => ?_, ?_⟩, fun m8 x8 op args h => ⟨_, decode_of_le h⟩⟩
  · simp only [List.mem_cons, List.not_mem_nil, or_false, Prod.mk.injEq] at h
    rcases h with ⟨rfl, rfl⟩ | ⟨rfl, rfl⟩ | ⟨rfl, rfl⟩ | ⟨rfl, rfl⟩ | ⟨rfl, rfl⟩ | ⟨rfl, rfl⟩ | ⟨rfl, rfl⟩
      | ⟨rfl, rfl⟩ <;> exact decode_immediate (fun _ => rfl) rfl rfl b1 b2 rest
  · simp only [List.mem_cons, List.not_mem_nil, or_false, Prod.mk.injEq] at h
    rcases h with ⟨rfl, rfl⟩ | ⟨rfl, rfl⟩ | ⟨rfl, rfl⟩ | ⟨rfl, rfl⟩ <;>
      exact decode_immediate (fun _ => rfl) rfl rfl b1 b2 rest
  · have fixed := Entry.operandCount_eq (operandCount_wide_eq_narrow h)
    exact (fixed m8 x8).trans (fixed m8' x8').symm
  · simp only [List.mem_cons, List.not_mem_nil, or_false] at h
    rcases h with rfl | rfl | rfl | rfl | rfl <;> rfl
  · rintro rfl
    rfl

/-- Settles O5: each clause reads the opcode of one kind of shape. -/
theorem opcodesFollowTheRegularities : Obligations.OpcodesFollowTheRegularities := by
  have regular {i : Instr} {sh : Shape} (h : i.shape = sh) :
      some i.opcode.toNat = sh.regularOpcode i.opcode.toNat := h ▸ (regularOpcode_shape i).symm
  exact ⟨fun _ _ _ h => regular h, fun _ _ h => regular h, fun _ _ h => regular h,
    fun _ _ _ _ h hg => by simpa [Shape.regularOpcode, hg] using regular h,
    fun _ _ _ h hg => by simpa [Shape.regularOpcode, hg] using regular h, fun _ => rfl⟩

end Sys2Proof

/-! SUPPORT. The core loop: the call and its result, what the fetch decodes, the pins, the setters and the
program-address primitives (40_core_loop.md R150 to R171). -/

namespace Sys2Proof.Machine

/-! ### The call and the run state -/

theorem exec_total (i : Instr) (s : State) : ∃ t, exec i s = .next t := by
  by_cases hi : i.shape = .other
  · exact (exec_other_effect hi s).imp fun _ h => h.1
  · exact ⟨_, exec_of_shape rfl hi s⟩

section Call

variable {i : Instr} {s t : State}

theorem run_of_exec_wai (h : exec .wai s = .next t) : t.run = .waiting := by
  cases h
  rfl

theorem run_of_exec_stp (h : exec .stp s = .next t) : t.run = .stopped := by
  cases h
  rfl

theorem run_of_exec_other (h : exec i s = .next t) (hi : ¬(i = .wai ∨ i = .stp)) : t.run = s.run :=
  (exec_effect h).fields .run (by decide) hi

/-- From a running core, WAI and STP alone end running. -/
theorem run_ne_running_iff (h : exec i s = .next t) (hs : s.run = .running) :
    t.run ≠ .running ↔ i = .wai ∨ i = .stp := by
  constructor
  · exact not_imp_comm.mp fun hi => (run_of_exec_other h hi).trans hs
  · rintro (rfl | rfl)
    · simp [run_of_exec_wai h]
    · simp [run_of_exec_stp h]

/-- The call of an executing core returns whether it still runs after the instruction (R171). -/
theorem State.executeNextInstruction_of_executing (hs : s.Executing)
    (h : exec s.fetch.val s.fetch.st = .next t) : s.executeNextInstruction = (t.run == .running, t) := by
  simp [executeNextInstruction, step_of_executing hs, h, hs.1, hs.2]

theorem State.executeNextInstruction_of_not_executing (hs : ¬s.Executing) :
    s.executeNextInstruction = (false, s) := by
  have idle : (!s.res && s.run == .running) = false := by simpa [Executing] using hs
  simp [executeNextInstruction, step_of_not_executing hs, idle]

end Call

/-! ### The fetch -/

theorem wf_decodeInstr {m8 x8 : Bool} {op : Byte} {args : List Byte} (h : args.length = operandCount m8 x8 op) :
    (decodeInstr op args).wf m8 x8 = true := by
  rw [Instr.wf_eq_fits, encoded_decodeInstr]
  exact Entry.fits_operands h

theorem State.wf_fetch (s : State) : s.fetch.val.wf s.accIs8 s.indexIs8 = true :=
  wf_decodeInstr (length_fetchBytes _ _ _ _)

/-- Where the bytes at the program address are an instruction's encoding and the model can read them, the
fetch gives that instruction and changes nothing. -/
theorem State.fetch_of_peek {s : State} {i : Instr} (hwf : i.wf s.accIs8 s.indexIs8 = true)
    (h : ∀ (k : Nat) (v : Byte), (encode s.accIs8 s.indexIs8 i)[k]? = some v →
      s.bus.peek (mkAddress s.pbr (s.pc + BitVec.ofNat 16 k)) = some v) :
    s.fetch = { val := i, st := s } := by
  obtain ⟨hcount, hbuild⟩ := encodedForm i _ _ hwf
  have hop : s.bus.readByte s.programAddress = { val := i.opcode, bus := s.bus } :=
    Bus.readByte_of_peek (by simpa [programAddress] using h 0 i.opcode rfl)
  have hargs : fetchBytes s.pbr (s.pc + 1) (i.encoded.2.bytes s.accIs8 s.indexIs8).length s.bus
      = { val := i.encoded.2.bytes s.accIs8 s.indexIs8, bus := s.bus } :=
    fetchBytes_of_peek fun k v hk => by
      rw [add_one_add_ofNat]
      exact h (k + 1) v hk
  simp only [fetch, hop, operandCount, hcount, hargs, decodeInstr, hbuild]
  rfl

/-! ### Reset and the RES pin -/

theorem State.performReset_performReset (s : State) : s.performReset.performReset = s.performReset := by
  have widths : putFlag .x true (putFlag .m true s.performReset.p) = s.performReset.p := by
    refine p_ext fun f => ?_
    simp only [performReset_p, getFlag_putFlag]
    split_ifs <;> rfl
  rw [performReset, widths]
  simp [performReset]

theorem State.setRESPin_release {s : State} (h : s.res = true) :
    s.setRESPin false = { s.performReset with res := false } := by simp [setRESPin, h]

/-- Any other write of the pin is recorded and does nothing else (R158). -/
theorem State.setRESPin_record {s : State} {v : Bool} (h : s.res = true → v = true) :
    s.setRESPin v = { s with res := v } := by
  rw [setRESPin, if_neg (by simpa using h)]

/-! ### The setters -/

/-- The width of a register (10_state.md R21 to R27). -/
def Register.bits (r : Register) : Nat :=
  match r with
  | .dbr | .pbr => 8
  | .c | .x | .y | .d | .s | .pc => 16

/-- What a setter leaves in each register. -/
theorem State.getRegister_setRegister (s : State) (r r' : Register) (v : Nat) :
    (s.setRegister r v).getRegister r' = if r' = r then v % 2 ^ r.bits else s.getRegister r' := by
  cases r <;> cases r' <;> rfl

@[simp] theorem State.setRegister_p (s : State) (r : Register) (v : Nat) : (s.setRegister r v).p = s.p := by
  cases r <;> rfl

@[simp] theorem State.setRegister_bus (s : State) (r : Register) (v : Nat) :
    (s.setRegister r v).bus = s.bus := by
  cases r <;> rfl

theorem State.keepsFields_setRegister (s : State) (r : Register) (v : Nat) :
    KeepsFieldsBut [.c, .x, .y, .d, .sp, .dbr, .pbr, .pc] s (s.setRegister r v) := by
  intro f hf
  cases f
  case c | x | y | d | sp | dbr | pbr | pc => exact absurd (by decide) hf
  case e | cycles | res | rdy | run | cfg => cases r <;> rfl

theorem State.keepsFlags_setFlag (s : State) (f : Flag) (v : Bool) : KeepsFlagsBut [f] s (s.setFlag f v) :=
  fun _ hg => getFlag_putFlag_ne (List.ne_of_not_mem_cons hg) v s.p

theorem State.keepsFields_setFlag (s : State) (f : Flag) (v : Bool) : KeepsFieldsBut [] s (s.setFlag f v) := by
  intro g _
  cases g <;> rfl

theorem State.keepsFields_setE (s : State) (v : Bool) : KeepsFieldsBut [.e] s (s.setE v) := by
  intro f hf
  cases f
  case e => exact absurd (by decide) hf
  all_goals rfl

/-! ### The program address -/

theorem State.addToProgramAddress_pc_toNat (s : State) (n : Nat) :
    (s.addToProgramAddress n).pc.toNat = (s.pc.toNat + n) % 2 ^ 16 := by
  rw [addToProgramAddress, BitVec.toNat_add, BitVec.toNat_ofNat, Nat.add_mod_mod]

theorem State.keepsFields_addToProgramAddress (s : State) (n : Nat) :
    KeepsFieldsBut [.pc] s (s.addToProgramAddress n) := by
  intro f hf
  cases f
  case pc => exact absurd (by decide) hf
  all_goals rfl

/-! ### The statements -/

/-- Settles O9: the call returns whether the core still runs, and WAI and STP alone change that. -/
theorem onlyWaiAndStpReturnFalse : Obligations.OnlyWaiAndStpReturnFalse := by
  intro s hs
  obtain ⟨t, ht⟩ := exec_total s.fetch.val s.fetch.st
  rw [State.executeNextInstruction_of_executing hs ht]
  refine ⟨beq_eq_false_iff_ne.trans (run_ne_running_iff ht hs.2), fun h => ?_, fun h => ?_⟩
  · exact run_of_exec_wai (h ▸ ht)
  · exact run_of_exec_stp (h ▸ ht)

/-- Settles O13: each setter by what it leaves in every register, flag and field. -/
theorem settersTruncateAndDoNothingElse : Obligations.SettersTruncateAndDoNothingElse := by
  refine ⟨fun s r v => ⟨?_, fun r' hr => ?_, s.keepsFields_setRegister r v, s.setRegister_p r v,
    s.setRegister_bus r v⟩, fun s f v => ⟨getFlag_putFlag_self f v s.p, s.keepsFlags_setFlag f v,
    s.keepsFields_setFlag f v, rfl⟩, fun s v => ⟨rfl, s.keepsFields_setE v, rfl, rfl⟩⟩
  · exact (s.getRegister_setRegister r r v).trans (if_pos rfl)
  · exact (s.getRegister_setRegister r r' v).trans (if_neg hr)

/-- Settles O6: where the bytes are memory the fetch gives their instruction; elsewhere it gives some
well-formed one, and reads only. -/
theorem stepRunsDecodedInstruction : Obligations.StepRunsDecodedInstruction := by
  refine ⟨fun s i hs hwf h => ?_, fun s hs => ?_⟩
  · rw [step_of_executing hs, State.fetch_of_peek hwf h]
  · exact ⟨s.fetch.val, s.fetch.st.bus, step_of_executing hs, s.wf_fetch, s.onlyRead_fetch.peek⟩

/-- Settles O8: in each case the core is not executing. -/
theorem heldOrHaltedDoesNothing : Obligations.HeldOrHaltedDoesNothing :=
  ⟨fun _ h => State.executeNextInstruction_of_not_executing fun ⟨hres, _⟩ => by simp [h] at hres,
    fun _ h => State.executeNextInstruction_of_not_executing fun ⟨_, hrun⟩ => h hrun,
    State.performReset_run⟩

/-- Settles O12: the release of a held pin, and the writes that only record it. -/
theorem resPinReleaseResetsOnce : Obligations.ResPinReleaseResetsOnce := by
  refine ⟨fun _ h => State.setRESPin_release h, fun s h => ?_, fun s => ?_, State.performReset_performReset⟩
  · rw [State.setRESPin_record (by simp [h]), ← h]
  · exact State.setRESPin_record fun _ => rfl

/-- Settles O23: the program address by its number; the cycle primitives are as the statement writes them. -/
theorem programAddressWrapsInItsBank : Obligations.ProgramAddressWrapsInItsBank :=
  fun s n _ => ⟨⟨s.addToProgramAddress_pc_toNat n, s.keepsFields_addToProgramAddress n, rfl, rfl⟩, rfl, rfl, rfl⟩

end Sys2Proof.Machine

/-! SUPPORT. Addressing: the numbers of the addresses a location names, the values of multi-byte reads, and
the stack primitives (41_addressing.md R180 to R199, R208, R209, R213). -/

namespace Sys2Proof.Machine

/-! ### Locations by number -/

/-- An address step: the sum wraps at the width it is taken in (R180). -/
theorem add_ofNat_toNat {n : Nat} (v : BitVec n) (k : Nat) :
    (v + BitVec.ofNat n k).toNat = (v.toNat + k) % 2 ^ n := by
  rw [BitVec.toNat_add, BitVec.toNat_ofNat, Nat.add_mod_mod]

/-- An address in bank 0 is the number of its offset. -/
theorem mkAddress_zero_toNat (o : Word) : (mkAddress 0x00 o).toNat = o.toNat := by
  simp [mkAddress_toNat]

theorem stackAddress_toNat (sp : Word) : (stackAddress sp).toNat = sp.toNat := mkAddress_zero_toNat sp

theorem Loc.addr_lin_toNat (a : Address) (k : Nat) : ((Loc.lin a).addr k).toNat = (a.toNat + k) % 2 ^ 24 :=
  add_ofNat_toNat a k

theorem Loc.addr_bank0_toNat (o : Word) (k : Nat) : ((Loc.bank0 o).addr k).toNat = (o.toNat + k) % 2 ^ 16 :=
  (mkAddress_zero_toNat _).trans (add_ofNat_toNat o k)

theorem Loc.addr_page_toNat (h l : Byte) (k : Nat) :
    ((Loc.page h l).addr k).toNat = h.toNat * 256 + (l.toNat + k) % 256 := by
  rw [addr, mkAddress_zero_toNat, joinBytes_toNat]
  exact congrArg (h.toNat * 256 + ·) (add_ofNat_toNat l k)

theorem Loc.addr_prog_toNat (bk : Byte) (o : Word) (k : Nat) :
    ((Loc.prog bk o).addr k).toNat = bk.toNat * 0x10000 + (o.toNat + k) % 2 ^ 16 := by
  rw [addr, mkAddress_toNat, add_ofNat_toNat]

/-- An index added to a linear address carries into the next bank. -/
theorem Loc.addr_lin_indexed_toNat (a : Address) (x : Word) (k : Nat) :
    ((Loc.lin (a + zeroExtend16 x)).addr k).toNat = (a.toNat + x.toNat + k) % 2 ^ 24 := by
  rw [addr_lin_toNat, BitVec.toNat_add, zeroExtend16_toNat, Nat.mod_add_mod]

/-- A stack offset carries out of page 1, in bank 0 (log entry 12). -/
theorem Loc.addr_bank0_offset_toNat (sp : Word) (o : Byte) (k : Nat) :
    ((Loc.bank0 (sp + zeroExtend8 o)).addr k).toNat = (sp.toNat + o.toNat + k) % 2 ^ 16 := by
  rw [addr_bank0_toNat, BitVec.toNat_add, zeroExtend8_toNat, Nat.mod_add_mod]

theorem zeroExtend8_eq_ofNat (b : Byte) : zeroExtend8 b = BitVec.ofNat 16 b.toNat :=
  (BitVec.ofNat_toNat 16 b).symm

/-- An offset in the data bank carries into the next bank. -/
theorem State.addr_data_toNat (s : State) (o : Word) (k : Nat) :
    ((Loc.lin (s.dataAddress o)).addr k).toNat = (s.dbr.toNat * 65536 + o.toNat + k) % 2 ^ 24 := by
  rw [Loc.addr_lin_toNat, dataAddress, mkAddress_toNat]

theorem State.addr_data_indexed_toNat (s : State) (o x : Word) (k : Nat) :
    ((Loc.lin (s.dataAddress o + zeroExtend16 x)).addr k).toNat =
      (s.dbr.toNat * 65536 + o.toNat + x.toNat + k) % 2 ^ 24 := by
  rw [Loc.addr_lin_indexed_toNat, dataAddress, mkAddress_toNat]

/-- The direct-page location, by number (R183). -/
theorem State.addr_dpLoc_toNat (s : State) (off k : Nat) (legacy : Bool) :
    ((s.dpLoc off legacy).addr k).toNat =
      if legacy = true ∧ s.e = true ∧ (lowByte s.d).toNat = 0 then
        (highByte s.d).toNat * 256 + (off + k) % 256
      else (s.d.toNat + off + k) % 2 ^ 16 := by
  have inPage : lowByte s.d = 0 ↔ (lowByte s.d).toNat = 0 := BitVec.toNat_inj.symm
  simp only [dpLoc, inPage]
  split
  · rw [Loc.addr_page_toNat, BitVec.toNat_ofNat, Nat.mod_add_mod]
  · rw [Loc.addr_bank0_toNat, add_ofNat_toNat, Nat.mod_add_mod]

/-! ### Reads -/

/-- A word read low byte first is its low byte and 0x100 times its high byte (R182). -/
theorem joinBytes_toNat_low_first (hi lo : Byte) : (joinBytes hi lo).toNat = lo.toNat + 0x100 * hi.toNat := by
  rw [joinBytes_toNat, Nat.add_comm, Nat.mul_comm]

theorem mkAddress_joinBytes_toNat (bk hi lo : Byte) :
    (mkAddress bk (joinBytes hi lo)).toNat = lo.toNat + 0x100 * hi.toNat + 0x10000 * bk.toNat := by
  rw [mkAddress_toNat, joinBytes_toNat_low_first, Nat.add_comm, Nat.mul_comm bk.toNat]

theorem lowByte_add_highByte (v : Word) : v.toNat = (lowByte v).toNat + 0x100 * (highByte v).toNat := by
  rw [← joinBytes_toNat_low_first, joinBytes_highByte_lowByte]

theorem Bus.readW_w8_of_peek {b : Bus} {l : Loc} {lo : Byte} (h : b.peek (l.addr 0) = some lo) :
    b.readW .w8 l = { val := zeroExtend8 lo, bus := b } := by
  simp only [readW, read1, readByte_of_peek h]

theorem Bus.readW_w16_of_peek {b : Bus} {l : Loc} {lo hi : Byte} (h0 : b.peek (l.addr 0) = some lo)
    (h1 : b.peek (l.addr 1) = some hi) : b.readW .w16 l = { val := joinBytes hi lo, bus := b } := by
  simp only [readW, read2, readByte_of_peek h0, readByte_of_peek h1]

/-! ### The stack -/

/-- S after a push, by number (R208). -/
theorem stackDown_toNat (e : Bool) (sp : Word) : (stackDown e sp).toNat =
    if e then 0x100 + ((lowByte sp).toNat + 255) % 256 else (sp.toNat + 0xFFFF) % 2 ^ 16 := by
  cases e
  · exact (BitVec.toNat_sub sp 1).trans (congrArg (· % 2 ^ 16) (Nat.add_comm _ _))
  · exact (joinBytes_toNat _ _).trans (congrArg (0x100 + ·)
      ((BitVec.toNat_sub (lowByte sp) 1).trans (congrArg (· % 2 ^ 8) (Nat.add_comm _ _))))

/-- S after a pull, by number (R208). -/
theorem stackUp_toNat (e : Bool) (sp : Word) : (stackUp e sp).toNat =
    if e then 0x100 + ((lowByte sp).toNat + 1) % 256 else (sp.toNat + 1) % 2 ^ 16 := by
  cases e
  · exact add_ofNat_toNat sp 1
  · exact (joinBytes_toNat _ _).trans (congrArg (0x100 + ·) (add_ofNat_toNat (lowByte sp) 1))

theorem State.push8_fields (s : State) (v : Byte) : KeepsFieldsBut [.sp] s (s.push8 v) := by
  intro g hg
  cases g
  case sp => exact absurd (by decide) hg
  all_goals rfl

theorem State.withBus_fields (s : State) (b : Bus) : KeepsFieldsBut [] s (s.withBus b) := by
  intro g _
  cases g <;> rfl

/-- A pull of two bytes is two pulls, the low byte first (R209). -/
theorem State.pull16_val_toNat (s : State) :
    s.pull16.val.toNat = s.pull8.val.toNat + 0x100 * s.pull8.st.pull8.val.toNat := joinBytes_toNat_low_first _ _

section PullAfterPush

variable {s : State} (hb : s.bus.wf) (hp : s.e = true → highByte s.sp = 0x01)
include hb hp

theorem State.pull8_push8 (hh : ∀ a ∈ pushSlots s.e 1 s.sp, s.bus.Holds a) (v : Byte) :
    (s.push8 v).pull8 = { val := v, st := s.withBus (s.push8 v).bus } :=
  pull8_pushed (bytes := [v]) (j := 0) (by simp) hb hp hh (by simp) rfl rfl fun _ => rfl

/-- The low byte, pushed last, is pulled first. -/
theorem State.pull16_push16 (hh : ∀ a ∈ pushSlots s.e 2 s.sp, s.bus.Holds a) (v : Word) :
    (s.push16 v).pull16 = { val := v, st := s.withBus (s.push16 v).bus } := by
  have low : (s.push16 v).pull8 =
      { val := lowByte v, st := { s.push16 v with sp := stackDown s.e s.sp } } :=
    pull8_pushed (bytes := [highByte v, lowByte v]) (j := 1) (by simp) hb hp hh (by simp) rfl rfl
      fun _ => rfl
  have high : ({ s.push16 v with sp := stackDown s.e s.sp } : State).pull8 =
      { val := highByte v, st := s.withBus (s.push16 v).bus } :=
    pull8_pushed (bytes := [highByte v, lowByte v]) (j := 0) (by simp) hb hp hh (by simp) rfl rfl
      fun _ => rfl
  simp only [pull16, low, high, joinBytes_highByte_lowByte]

end PullAfterPush

/-! ### The statements -/

/-- Settles O24: the orders are the model's own definitions, and the composed values are numbers. -/
theorem multiByteAccessOrder : Obligations.MultiByteAccessOrder :=
  ⟨fun _ _ => ⟨⟨rfl, rfl⟩, ⟨joinBytes_toNat_low_first _ _, rfl⟩, ⟨mkAddress_joinBytes_toNat _ _ _, rfl⟩⟩,
    fun _ _ v => ⟨rfl, rfl, rfl, rfl, lowByte_add_highByte v⟩,
    fun s _ => ⟨rfl, s.pull16_val_toNat, rfl⟩⟩

/-- Settles O25: a mode's pointer reads leave every byte as it was, so what the model reads at the location
before them is what the load reads after them. -/
theorem loadedOperandIsMemory : Obligations.LoadedOperandIsMemory := by
  refine ⟨fun s m lo h => ?_, fun s m lo hi h0 h1 => ?_, fun s v => ⟨?_, ?_, fun _ => rfl⟩⟩
  · rw [← (s.onlyRead_effective m).peek] at h
    simp only [State.load, Bus.readW_w8_of_peek h, zeroExtend8_toNat]
  · rw [← (s.onlyRead_effective m).peek] at h0 h1
    simp only [State.load, Bus.readW_w16_of_peek h0 h1, joinBytes_toNat_low_first]
  · exact Width.trunc_toNat .w8 v
  · exact Width.trunc_w16 v

/-- Settles O26: each kind of location by number. -/
theorem locationsWrapAsTheirKindSays : Obligations.LocationsWrapAsTheirKindSays :=
  ⟨Loc.addr_lin_toNat, Loc.addr_bank0_toNat, Loc.addr_page_toNat, Loc.addr_prog_toNat,
    State.addr_dpLoc_toNat⟩

/-- Settles O27: a mode is a location of its kind, and the location's number is that of its parts. -/
theorem directModesLocateTheirData : Obligations.DirectModesLocateTheirData := by
  intro s
  exact ⟨fun _ => ⟨rfl, rfl, rfl⟩,
    fun a k => ⟨⟨s.addr_data_toNat a k, rfl, rfl⟩, ⟨s.addr_data_indexed_toNat a s.xe k, rfl, rfl⟩,
      ⟨s.addr_data_indexed_toNat a s.ye k, rfl, rfl⟩⟩,
    fun a k => ⟨⟨Loc.addr_lin_toNat a k, rfl, rfl⟩, ⟨Loc.addr_lin_indexed_toNat a s.xe k, rfl, rfl⟩⟩,
    fun o k => ⟨Loc.addr_bank0_offset_toNat s.sp o k, rfl, rfl⟩⟩

/-- Settles O28: the pointer is read where the mode's definition reads it, and the location's number is that
of the pointer. -/
theorem indirectModesFollowTheirPointer : Obligations.IndirectModesFollowTheirPointer := by
  intro s d k
  rw [← zeroExtend8_eq_ofNat d]
  intro near indexed far stacked base
  exact ⟨⟨s.addr_data_toNat near.val k, rfl, rfl⟩, ⟨s.addr_data_toNat indexed.val k, rfl, rfl⟩,
    ⟨s.addr_data_indexed_toNat near.val s.ye k, rfl, rfl⟩, ⟨Loc.addr_lin_toNat far.val k, rfl, rfl⟩,
    ⟨Loc.addr_lin_indexed_toNat far.val s.ye k, rfl, rfl⟩,
    ⟨s.addr_data_indexed_toNat stacked.val s.ye k, rfl, rfl⟩⟩

/-- Settles O29: S by number, and the fields of the primitives. -/
theorem stackPrimitivesMoveTheStackPointer : Obligations.StackPrimitivesMoveTheStackPointer :=
  ⟨fun s v => ⟨rfl, stackAddress_toNat s.sp, stackDown_toNat s.e s.sp, s.push8_fields v, rfl⟩,
    fun s => ⟨stackUp_toNat s.e s.sp, rfl, rfl, s.pull8_fields, rfl⟩,
    fun s _ _ => ⟨rfl, rfl, s.pull16_val_toNat⟩⟩

/-- Settles O30: the pull leaves the state before the push with the bus after it. -/
theorem pullGivesBackThePush : Obligations.PullGivesBackThePush := by
  refine ⟨fun s v hb hp hh => ?_, fun s v hb hp hh => ?_⟩
  · rw [State.pull8_push8 hb hp hh v]
    exact ⟨rfl, s.withBus_fields _, rfl, rfl⟩
  · rw [State.pull16_push16 hb hp hh v]
    exact ⟨rfl, s.withBus_fields _, rfl, rfl⟩

end Sys2Proof.Machine

/-! SUPPORT. The read-modify-write instructions: each result by number, and the flags it sets
(41_addressing.md R211, R215; 43_arith_logic.md R269 to R272; 44_shift_rotate.md R300 to R303). -/

namespace Sys2Proof.Machine

/-! ### Results by number -/

theorem Width.mask_toNat (w : Width) : w.mask.toNat = 2 ^ w.bits - 1 := by
  cases w <;> rfl

/-- A bit brought in has no place in common with the bits beside it, so it adds. -/
theorem or_toNat_of_disjoint {x y : Word} {n k : Nat} (hx : x.toNat = n * 2 ^ k) (hy : y.toNat < 2 ^ k) :
    (x ||| y).toNat = x.toNat + y.toNat := by
  rw [BitVec.toNat_or, hx, Nat.mul_comm, Nat.two_pow_add_eq_or_of_lt hy]

theorem shiftLeft_one_toNat (v : Word) : (v <<< 1).toNat = v.toNat * 2 % 2 ^ 16 := by
  rw [BitVec.toNat_shiftLeft, Nat.shiftLeft_eq, Nat.pow_one]

theorem shiftRight_one_toNat (v : Word) : (v >>> 1).toNat = v.toNat / 2 := by
  rw [BitVec.toNat_ushiftRight, Nat.shiftRight_eq_div_pow, Nat.pow_one]

/-- ROL's result: the carry comes in at the low end (R302). -/
theorem rol_toNat (v : Word) (p : Byte) :
    (v <<< 1 ||| carryAt p 0).toNat = v.toNat * 2 % 2 ^ 16 + if getFlag p .c then 1 else 0 := by
  have carry := carryAt_toNat p (k := 0) (by decide)
  have even : (v <<< 1).toNat = v.toNat % 2 ^ 15 * 2 ^ 1 := by
    rw [shiftLeft_one_toNat]; omega
  rw [or_toNat_of_disjoint even (by rw [carry]; split <;> decide), shiftLeft_one_toNat, carry, Nat.pow_zero,
    Nat.mul_one]

/-- ROR's result: the carry comes in at the high end of the width (R303). -/
theorem ror_toNat {w : Width} {v : Word} (hv : v.toNat < 2 ^ w.bits) (p : Byte) :
    (v >>> 1 ||| carryAt p (w.bits - 1)).toNat =
      v.toNat / 2 + (if getFlag p .c then 1 else 0) * 2 ^ (w.bits - 1) := by
  have carry := carryAt_toNat p (k := w.bits - 1) (by cases w <;> decide)
  have low : (v >>> 1).toNat < 2 ^ (w.bits - 1) := by
    rw [shiftRight_one_toNat]
    cases w <;> simp only [Width.bits] at hv ⊢ <;> omega
  rw [BitVec.or_comm, or_toNat_of_disjoint carry low, Nat.add_comm, shiftRight_one_toNat, carry]

/-- Every result is the rule's number. -/
theorem ModifyOp.fn_value_toNat (op : ModifyOp) (w : Width) (a v : Word) (hv : v.toNat < 2 ^ w.bits)
    (p : Byte) : (op.fn a w v p).value.toNat =
      modifyRule op w.bits a.toNat v.toNat (if getFlag p .c then 1 else 0) := by
  cases op with
  | asl =>
    show (w.trunc (v <<< 1)).toNat = v.toNat * 2 % 2 ^ w.bits
    rw [Width.trunc_toNat, shiftLeft_one_toNat]
    cases w <;> simp only [Width.bits] <;> omega
  | lsr => exact shiftRight_one_toNat v
  | rol =>
    show (w.trunc (v <<< 1 ||| carryAt p 0)).toNat = (v.toNat * 2 + _) % 2 ^ w.bits
    rw [Width.trunc_toNat, rol_toNat]
    cases w <;> simp only [Width.bits] <;> omega
  | ror => exact ror_toNat hv p
  | inc =>
    show (w.trunc (v + 1)).toNat = (v.toNat + 1) % 2 ^ w.bits
    rw [Width.trunc_toNat]
    cases w <;> simp only [Width.bits] <;> bv_omega
  | dec =>
    show (w.trunc (v - 1)).toNat = (v.toNat + 2 ^ w.bits - 1) % 2 ^ w.bits
    rw [Width.trunc_toNat]
    cases w <;> simp only [Width.bits] <;> bv_omega
  | tsb => exact BitVec.toNat_or v a
  | trb =>
    show (v &&& (a ^^^ w.mask)).toNat = v.toNat &&& (a.toNat ^^^ (2 ^ w.bits - 1))
    rw [BitVec.toNat_and, BitVec.toNat_xor, w.mask_toNat]

/-! ### Flags -/

section Flags

variable {w : Width} {s t : State}

/-- The flags of a shift: the bit shifted out goes to C. -/
theorem flags_of_shift {r : Word} {b : Bool} (h : t.p = putNZ w r (putFlag .c b s.p)) :
    SetsNZ w r t ∧ t.flag .c = b ∧ KeepsFlagsBut [.n, .z, .c] s t := by
  refine ⟨setsNZ_of_putNZ h, ?_, fun f hf => ?_⟩
  · rw [State.flag, h, getFlag_putNZ]
    exact getFlag_putFlag_self .c b s.p
  · cases f <;> simp [State.flag, h, getFlag_putNZ, getFlag_putFlag] at hf ⊢

/-- The flag of a bit test (R269, R270). -/
theorem flags_of_putTestZ {a v : Word} (h : t.p = putTestZ a v s.p) :
    t.flag .z = decide (a &&& v = 0) ∧ KeepsFlagsBut [.z] s t := by
  refine ⟨?_, fun f hf => ?_⟩
  · rw [State.flag, h, putTestZ, getFlag_putFlag_self, beq_eq_decide]
  · rw [State.flag, h]
    exact getFlag_putFlag_ne (List.ne_of_not_mem_cons hf) _ s.p

/-- Every operation's flags are the rule's. -/
theorem ModifyOp.modifyFlags (op : ModifyOp) {a v : Word} (h : t.p = (op.fn a w v s.p).p) :
    ModifyFlags op w a v (op.fn a w v s.p).value s t := by
  cases op with
  | asl | lsr | rol | ror => exact flags_of_shift h
  | inc | dec => exact ⟨setsNZ_of_putNZ h, keepsFlags_of_putNZ h⟩
  | tsb | trb => exact flags_of_putTestZ h

end Flags

/-! ### The statement -/

/-- Settles O44: the two patterns say where operand and result go, and each operation's result and flags
are the rule's. -/
theorem modifyReadsThenWrites : Obligations.ModifyReadsThenWrites := by
  intro i op s w a carry
  refine ⟨fun m h => ?_, fun h => ?_⟩
  · have mem := modifyMemory_spec (op.fn a) m i.tableCost s
    have cost := cost_of_shape h s
    exact ⟨_, _, exec_of_shape h (by simp) s, op.fn_value_toNat w a _ (Bus.readW_lt _ w _) s.p, mem.bus,
      mem.bytes, op.modifyFlags mem.p, ⟨mem.pc, cost ▸ mem.cycles⟩, mem.fields, mem.stored.keepsMemoryBut⟩
  · have acc := modifyAccumulator_spec (op.fn a) i.tableCost s
    have cost := cost_of_shape h s
    exact ⟨_, _, exec_of_shape h (by simp) s, op.fn_value_toNat w a a (s.acc_lt w) s.p,
      setsAcc_accWith acc.acc, op.modifyFlags acc.p, acc.bus, ⟨acc.pc, cost ▸ acc.cycles⟩, acc.fields,
      fun _ => congrArg (Bus.peek · _) acc.bus⟩

end Sys2Proof.Machine

/-! SUPPORT. Loads, stores, register transfers and block moves: the frame of each state operation they are
written with, each pattern's effect, and a block move from its first byte to its last
(42_load_store_transfer.md R220 to R241). -/

namespace Sys2Proof.Machine

/-! ### Frames -/

/-- Frames compose: what two changes write is what either writes. -/
theorem KeepsFieldsBut.append {fs gs : List Field} {s t u : State} (h : KeepsFieldsBut fs s t)
    (h' : KeepsFieldsBut gs t u) : KeepsFieldsBut (fs ++ gs) s u :=
  (h.mono fun _ => List.mem_append_left gs).trans (h'.mono fun _ => List.mem_append_right fs)

namespace State

variable (s : State)

/-- A write of registers and P changes the registers it names and no other field. -/
theorem withRegisters_fields {fs : List Field} {c x y d sp : Word} {p : Byte}
    (hc : .c ∈ fs ∨ c = s.c := by exact .inr rfl) (hx : .x ∈ fs ∨ x = s.x := by exact .inr rfl)
    (hy : .y ∈ fs ∨ y = s.y := by exact .inr rfl) (hd : .d ∈ fs ∨ d = s.d := by exact .inr rfl)
    (hsp : .sp ∈ fs ∨ sp = s.sp := by exact .inr rfl) :
    KeepsFieldsBut fs s { s with c := c, x := x, y := y, d := d, sp := sp, p := p } := by
  intro f hf
  cases f with
  | c => exact hc.resolve_left hf
  | x => exact hx.resolve_left hf
  | y => exact hy.resolve_left hf
  | d => exact hd.resolve_left hf
  | sp => exact hsp.resolve_left hf
  | _ => rfl

theorem setNZ_fields (w : Width) (v : Word) : KeepsFieldsBut [] s (s.setNZ w v) := s.withRegisters_fields

theorem withC_fields (v : Word) : KeepsFieldsBut [.c] s { s with c := v } :=
  s.withRegisters_fields (hc := .inl (by decide))

theorem withD_fields (v : Word) : KeepsFieldsBut [.d] s { s with d := v } :=
  s.withRegisters_fields (hd := .inl (by decide))

theorem withSp_fields (v : Word) : KeepsFieldsBut [.sp] s { s with sp := v } :=
  s.withRegisters_fields (hsp := .inl (by decide))

theorem setX_fields (w : Width) (v : Word) : KeepsFieldsBut [.x] s (s.setX w v) :=
  s.withRegisters_fields (hx := .inl (by decide))

theorem setY_fields (w : Width) (v : Word) : KeepsFieldsBut [.y] s (s.setY w v) :=
  s.withRegisters_fields (hy := .inl (by decide))

theorem finish_fields (len cyc : Nat) : KeepsFieldsBut [.pc, .cycles] s (s.finish len cyc) := by
  intro f hf
  cases f with
  | pc | cycles => exact absurd (by decide) hf
  | _ => rfl

end State

/-! ### Loads of an index register -/

/-- Everything a load of an index register does, the register aside. -/
structure LoadsIndex (f : Field) (o : Operand) (k : Cost) (s t : State) : Prop where
  p      : t.p = putNZ s.wx (s.load s.wx o).value s.p
  bus    : t.bus = (s.load s.wx o).bus
  pc     : t.pc = s.pc + BitVec.ofNat 16 (o.len s.wx)
  cycles : t.cycles = s.cycles + (cycleCost k s (o.crossed s) false : Nat)
  fields : KeepsFieldsBut [f, .pc, .cycles] s t
  memory : KeepsMemory s t

theorem ldx_spec (o : Operand) (k : Cost) (s : State) : LoadsIndex .x o k s (ldx o k s) where
  p := rfl
  bus := rfl
  pc := rfl
  cycles := by rw [← o.crossed_eq_load s.wx s]; rfl
  fields := (s.withBus_fields _).append (State.setX_fields _ _ _) |>.append (State.setNZ_fields _ _ _)
    |>.append (State.finish_fields _ _ _)
  memory := (s.onlyRead_load s.wx o).keepsMemory

theorem ldy_spec (o : Operand) (k : Cost) (s : State) : LoadsIndex .y o k s (ldy o k s) where
  p := rfl
  bus := rfl
  pc := rfl
  cycles := by rw [← o.crossed_eq_load s.wx s]; rfl
  fields := (s.withBus_fields _).append (State.setY_fields _ _ _) |>.append (State.setNZ_fields _ _ _)
    |>.append (State.finish_fields _ _ _)
  memory := (s.onlyRead_load s.wx o).keepsMemory

/-! ### Register transfers -/

/-- The accumulator at a width, after `SetAcc` at that width. -/
theorem State.trunc_accWith (s : State) (w : Width) (v : Word) : w.trunc (s.accWith w v) = w.trunc v := by
  cases w
  · apply BitVec.eq_of_toNat_eq
    rw [Width.trunc_toNat, Width.trunc_toNat, accWith, joinBytes_toNat, lowByte_toNat, Width.bits]
    omega
  · rfl

section Transfers

variable {i : Instr} {k : Cost} (hi : i.shape = .other) (hk : i.tableCost = k) (v : Word) (s : State)
include hi hk

/-- A register written, N and Z set from a value, and the end of a one-byte instruction. -/
theorem registerOnly_setNZ {fs : List Field} {u : State} (hu : KeepsFieldsBut fs s u) (hb : u.bus = s.bus)
    (hpc : u.pc = s.pc) (hc : u.cycles = s.cycles) (hp : u.p = s.p) (w : Width) :
    RegisterOnly i fs [.n, .z] s ((u.setNZ w v).finish 1 (plainCost k s)) := by
  subst hk
  refine registerOnly_of hi hb (congrArg (· + 1) hpc) (congrArg (· + _) hc) ?_
    (keepsFlags_of_putNZ (congrArg (putNZ w v) hp))
  exact hu.append ((u.setNZ_fields w v).append (State.finish_fields _ _ _))

theorem transferToX_registerOnly : RegisterOnly i [.x] [.n, .z] s (transferToX v k s) :=
  registerOnly_setNZ hi hk v s (s.setX_fields s.wx v) rfl rfl rfl rfl s.wx

theorem transferToY_registerOnly : RegisterOnly i [.y] [.n, .z] s (transferToY v k s) :=
  registerOnly_setNZ hi hk v s (s.setY_fields s.wx v) rfl rfl rfl rfl s.wx

theorem transferToAcc_registerOnly : RegisterOnly i [.c] [.n, .z] s (transferToAcc v k s) :=
  registerOnly_setNZ hi hk v s (s.withC_fields (s.accWith s.wm v)) rfl rfl rfl rfl s.wm

theorem transferToC_registerOnly : RegisterOnly i [.c] [.n, .z] s (transferToC v k s) :=
  registerOnly_setNZ hi hk v s (s.withC_fields v) rfl rfl rfl rfl .w16

theorem transferToD_registerOnly : RegisterOnly i [.d] [.n, .z] s (transferToD v k s) :=
  registerOnly_setNZ hi hk v s (s.withD_fields v) rfl rfl rfl rfl .w16

theorem exchangeBA_registerOnly : RegisterOnly i [.c] [.n, .z] s (exchangeBA k s) :=
  registerOnly_setNZ hi hk _ s (s.withC_fields (joinBytes s.a s.b)) rfl rfl rfl rfl .w8

/-- A transfer into S writes no flag (R234, R235). -/
theorem transferToS_registerOnly : RegisterOnly i [.sp] [] s (transferToS v k s) := by
  subst hk
  exact registerOnly_of hi rfl rfl rfl ((s.withSp_fields _).append (State.finish_fields _ _ _)) (keepsFlags_of_eq rfl _)

end Transfers

section TransferFlags

variable (v : Word) (k : Cost) (s : State)

/-- N and Z follow X as it is after the transfer. -/
theorem transferToX_setsNZ : SetsNZ s.wx (transferToX v k s).x (transferToX v k s) :=
  setsNZ_trunc.mpr (setsNZ_of_putNZ rfl)

theorem transferToY_setsNZ : SetsNZ s.wx (transferToY v k s).y (transferToY v k s) :=
  setsNZ_trunc.mpr (setsNZ_of_putNZ rfl)

theorem transferToAcc_setsNZ : SetsNZ s.wm ((transferToAcc v k s).acc s.wm) (transferToAcc v k s) := by
  have written : (transferToAcc v k s).acc s.wm = s.wm.trunc v := s.trunc_accWith s.wm v
  rw [written]
  exact setsNZ_trunc.mpr (setsNZ_of_putNZ rfl)

/-- S after a transfer, by number: in page 1 in emulation mode. -/
theorem transferToS_sp_toNat : (transferToS v k s).sp.toNat =
    if s.e then 0x100 + (lowByte v).toNat else v.toNat := by
  show (if s.e then joinBytes 0x01 (lowByte v) else v).toNat = _
  split
  · exact joinBytes_toNat 0x01 (lowByte v)
  · rfl

/-- The flags of XBA are those of the new A as a byte. -/
theorem exchangeBA_flags : (exchangeBA k s).flag .n = s.b.getLsbD 7 ∧
    (exchangeBA k s).flag .z = decide (s.b = 0) := by
  obtain ⟨hn, hz⟩ : SetsNZ .w8 (zeroExtend8 s.b) (exchangeBA k s) := setsNZ_of_putNZ rfl
  have zero : Width.w8.trunc (zeroExtend8 s.b) = 0 ↔ s.b = 0 := by
    rw [Width.trunc_of_lt (by rw [zeroExtend8_toNat]; exact s.b.isLt), ← BitVec.toNat_inj, zeroExtend8_toNat,
      ← BitVec.toNat_inj]
    rfl
  refine ⟨hn.trans ?_, by rw [hz]; exact decide_eq_decide.mpr zero⟩
  simp [Width.msb, zeroExtend8]

end TransferFlags

/-! ### One byte of a block move -/

/-- MVN and MVP are one move, with the indexes stepped by 1 or by -1. -/
theorem exec_blockMove {dd ss : Byte} {i : Instr} (h : i = .mvn dd ss ∨ i = .mvp dd ss) :
    ∃ d : Word, (∀ s, exec i s = .next (blockMove (· + d) dd ss ⟨7, [.n9]⟩ s)) ∧
      ∀ v n : Word, (if i = .mvn dd ss then v + n else v - n) = v + n * d := by
  rcases h with rfl | rfl
  · exact ⟨1, fun _ => rfl, fun v n => by simp⟩
  · have back (v n : Word) : v - n = v + n * -1 := by ring
    have step : (· - 1 : Word → Word) = (· + -1) := funext fun v => back v 1
    exact ⟨-1, fun s => congrArg (fun f => Host.Outcome.next (blockMove f dd ss ⟨7, [.n9]⟩ s)) step,
      fun v n => by simp [back]⟩

/-- A block move costs 7 cycles a byte. -/
theorem cost_blockMove {dd ss : Byte} {i : Instr} (h : i = .mvn dd ss ∨ i = .mvp dd ss) (s : State) :
    i.cost s = 7 := by
  rcases h with rfl | rfl
  · rw [cost_of_other rfl, tableCost_mvn]; rfl
  · rw [cost_of_other rfl, tableCost_mvp]; rfl

section OneByte

variable (next : Word → Word) (dd ss : Byte) (k : Cost) (s : State)

theorem blockMove_pc : (blockMove next dd ss k s).pc = if s.c - 1 = 0xFFFF then s.pc + 3 else s.pc := by
  show s.pc + BitVec.ofNat 16 (if s.c - 1 = 0xFFFF then 3 else 0) = _
  split
  · rfl
  · exact BitVec.add_zero s.pc

theorem blockMove_fields :
    KeepsFieldsBut [.c, .x, .y, .dbr, .pc, .cycles] s (blockMove next dd ss k s) := by
  intro f hf
  cases f with
  | c | x | y | dbr | pc | cycles => exact absurd (by decide) hf
  | _ => rfl

theorem blockMove_keepsMemoryBut : KeepsMemoryBut [mkAddress dd s.ye] s (blockMove next dd ss k s) :=
  ((Bus.onlyRead_readByte s.bus _).stored.trans (Bus.onlyStored_storeByte _ _ _)).keepsMemoryBut

end OneByte

/-! ### A block move of several bytes -/

/-- What the first `n` executions of a block move do, `d` the step of the indexes, as long as the count has
not run out before. -/
structure MovesBytes (d : Word) (dd : Byte) (n : Nat) (s t : State) : Prop where
  dbr    : t.dbr = dd
  x      : t.x = s.wx.trunc (s.xe + BitVec.ofNat 16 n * d)
  y      : t.y = s.wx.trunc (s.ye + BitVec.ofNat 16 n * d)
  c      : t.c = s.c - BitVec.ofNat 16 n
  pc     : t.pc = if n = s.c.toNat + 1 then s.pc + 3 else s.pc
  cycles : t.cycles = s.cycles + 7 * n
  p      : t.p = s.p
  fields : KeepsFieldsBut [.c, .x, .y, .dbr, .pc, .cycles] s t
  memory : ∀ a, bankOf a ≠ dd → t.bus.peek a = s.bus.peek a

/-- The count runs out with this byte exactly when it is 0 before it. -/
theorem sub_one_eq_ffff (c : Word) : c - 1 = 0xFFFF ↔ 1 = c.toNat + 1 := by
  bv_omega

theorem blockMove_movesBytes (d : Word) (dd ss : Byte) (s : State) :
    MovesBytes d dd 1 s (blockMove (· + d) dd ss ⟨7, [.n9]⟩ s) where
  dbr := rfl
  x := congrArg (fun v => s.wx.trunc (s.xe + v)) (BitVec.one_mul d).symm
  y := congrArg (fun v => s.wx.trunc (s.ye + v)) (BitVec.one_mul d).symm
  c := rfl
  pc := by rw [blockMove_pc]; exact if_congr (sub_one_eq_ffff s.c) rfl rfl
  cycles := rfl
  p := rfl
  fields := blockMove_fields (· + d) dd ss _ s
  memory a ha := by
    refine blockMove_keepsMemoryBut (· + d) dd ss _ s a fun h => ha ?_
    rw [List.mem_singleton.mp h, bankOf_mkAddress]

/-- The high bits an index loses at its width do not come back with a later step. -/
theorem Width.trunc_trunc_add (w : Width) (u v : Word) : w.trunc (w.trunc u + v) = w.trunc (u + v) := by
  apply BitVec.eq_of_toNat_eq
  simp only [trunc_toNat, BitVec.toNat_add]
  cases w <;> simp only [bits] <;> omega

/-- An index stepped in two runs is stepped by the sum of both. -/
theorem Width.trunc_steps (w : Width) (v d : Word) (m n : Nat) :
    w.trunc (w.trunc (w.trunc (v + BitVec.ofNat 16 m * d)) + BitVec.ofNat 16 n * d) =
      w.trunc (v + BitVec.ofNat 16 (m + n) * d) := by
  rw [trunc_trunc, trunc_trunc_add, BitVec.add_assoc, BitVec.ofNat_add, BitVec.add_mul]

/-- Two runs of a block move are one, where the count has not run out in the first. -/
theorem MovesBytes.trans {d : Word} {dd : Byte} {m n : Nat} {s t u : State} (h : MovesBytes d dd m s t)
    (h' : MovesBytes d dd n t u) (hm : m ≤ s.c.toNat) : MovesBytes d dd (m + n) s u := by
  have wx : t.wx = s.wx := by rw [State.wx, State.indexIs8, State.flag, h.p, h.fields .e (by decide)]; rfl
  have left : t.c.toNat = s.c.toNat - m := by rw [h.c]; bv_omega
  have pc : t.pc = s.pc := h.pc.trans (if_neg (by omega))
  have last : n = t.c.toNat + 1 ↔ m + n = s.c.toNat + 1 := by omega
  exact {
    dbr := h'.dbr
    x := by rw [h'.x, State.xe, wx, h.x, Width.trunc_steps]
    y := by rw [h'.y, State.ye, wx, h.y, Width.trunc_steps]
    c := by rw [h'.c, h.c, BitVec.ofNat_add, sub_sub]
    pc := by rw [h'.pc, pc]; exact if_congr last rfl rfl
    cycles := by rw [h'.cycles, h.cycles]; push_cast; ring
    p := h'.p.trans h.p
    fields := h.fields.trans h'.fields
    memory := fun a ha => (h'.memory a ha).trans (h.memory a ha) }

/-- The executions of a block move, up to the one with which the count runs out. -/
theorem execTimes_blockMove {d : Word} {dd ss : Byte} {i : Instr}
    (hexec : ∀ s, exec i s = .next (blockMove (· + d) dd ss ⟨7, [.n9]⟩ s)) (n : Nat) (s : State)
    (hn : n ≤ s.c.toNat) : ∃ t, execTimes (n + 1) i s = .next t ∧ MovesBytes d dd (n + 1) s t := by
  have first := blockMove_movesBytes d dd ss s
  induction n generalizing s with
  | zero => exact ⟨_, by rw [execTimes, hexec]; rfl, first⟩
  | succ n ih =>
    have left : n ≤ (blockMove (· + d) dd ss ⟨7, [.n9]⟩ s).c.toNat := by rw [first.c]; bv_omega
    obtain ⟨t, ht, rest⟩ := ih _ left (blockMove_movesBytes d dd ss _)
    exact ⟨t, by rw [execTimes, hexec]; exact ht, Nat.add_comm 1 (n + 1) ▸ first.trans rest (by omega)⟩

/-! ### The statements -/

/-- Settles O31: LDA is the accumulator pattern with the operand as its result. -/
theorem ldaLoadsTheAccumulator : Obligations.LdaLoadsTheAccumulator := by
  intro i o s h w l
  have lda := accumulate_spec ldaOp o i.tableCost s
  exact ⟨_, exec_of_shape h (by simp) s, setsAcc_accWith lda.acc, setsNZ_of_putNZ lda.p, lda.bus,
    ⟨lda.pc, cost_of_shape h s ▸ lda.cycles⟩, lda.fields, keepsFlags_of_putNZ lda.p, lda.memory⟩

/-- Settles O32: the register gets the operand at the index width. -/
theorem ldxAndLdyLoadAnIndex : Obligations.LdxAndLdyLoadAnIndex := by
  intro i o s w l
  refine ⟨fun h => ?_, fun h => ?_⟩
  · have ldx := ldx_spec o i.tableCost s
    exact ⟨_, exec_of_shape h (by simp) s, w.trunc_toNat l.value, setsNZ_of_putNZ ldx.p, ldx.bus,
      ⟨ldx.pc, cost_of_shape h s ▸ ldx.cycles⟩, ldx.fields, keepsFlags_of_putNZ ldx.p, ldx.memory⟩
  · have ldy := ldy_spec o i.tableCost s
    exact ⟨_, exec_of_shape h (by simp) s, w.trunc_toNat l.value, setsNZ_of_putNZ ldy.p, ldy.bus,
      ⟨ldy.pc, cost_of_shape h s ▸ ldy.cycles⟩, ldy.fields, keepsFlags_of_putNZ ldy.p, ldy.memory⟩

/-- Settles O33: the store pattern, at the width and with the value of the register stored. -/
theorem storesWriteOnlyTheirOperand : Obligations.StoresWriteOnlyTheirOperand := by
  intro i r m s h w v ea
  have store := storeValue_spec (r.width s) (r.value s) m i.tableCost s
  exact ⟨_, exec_of_shape h (by simp) s, store.bus, store.bytes, store.p,
    ⟨store.pc, cost_of_shape h s ▸ store.cycles⟩, store.fields, store.stored.keepsMemoryBut⟩

/-- Settles O34, transfer by transfer. -/
theorem transfersTakeTheDestinationWidth : Obligations.TransfersTakeTheDestinationWidth := by
  intro s
  exact ⟨
    ⟨_, rfl, s.wx.trunc_toNat s.c, transferToX_setsNZ _ _ s, transferToX_registerOnly rfl tableCost_tax _ s⟩,
    ⟨_, rfl, s.wx.trunc_toNat s.c, transferToY_setsNZ _ _ s, transferToY_registerOnly rfl tableCost_tay _ s⟩,
    ⟨_, rfl, setsAcc_accWith rfl, transferToAcc_setsNZ _ _ s,
      transferToAcc_registerOnly rfl tableCost_txa _ s⟩,
    ⟨_, rfl, setsAcc_accWith rfl, transferToAcc_setsNZ _ _ s,
      transferToAcc_registerOnly rfl tableCost_tya _ s⟩,
    ⟨_, rfl, s.trunc_xe, transferToY_setsNZ _ _ s, transferToY_registerOnly rfl tableCost_txy _ s⟩,
    ⟨_, rfl, s.trunc_ye, transferToX_setsNZ _ _ s, transferToX_registerOnly rfl tableCost_tyx _ s⟩,
    ⟨_, rfl, s.wx.trunc_toNat s.sp, transferToX_setsNZ _ _ s,
      transferToX_registerOnly rfl tableCost_tsx _ s⟩⟩

/-- Settles O35, transfer by transfer. -/
theorem fullWidthTransfers : Obligations.FullWidthTransfers := by
  intro s
  obtain ⟨hn, hz⟩ := exchangeBA_flags ⟨3, []⟩ s
  exact ⟨
    ⟨_, rfl, transferToS_sp_toNat s.xe _ s, transferToS_registerOnly rfl tableCost_txs _ s⟩,
    ⟨_, rfl, transferToS_sp_toNat s.c _ s, transferToS_registerOnly rfl tableCost_tcs _ s⟩,
    ⟨_, rfl, rfl, setsNZ_of_putNZ rfl, transferToC_registerOnly rfl tableCost_tsc _ s⟩,
    ⟨_, rfl, rfl, setsNZ_of_putNZ rfl, transferToD_registerOnly rfl tableCost_tcd _ s⟩,
    ⟨_, rfl, rfl, setsNZ_of_putNZ rfl, transferToC_registerOnly rfl tableCost_tdc _ s⟩,
    ⟨_, rfl, lowByte_joinBytes _ _, highByte_joinBytes _ _, hn, hz,
      exchangeBA_registerOnly rfl tableCost_xba s⟩⟩

/-- Settles O36: the move's fields, with the indexes stepped by 1 or by -1. -/
theorem blockMoveMovesOneByte : Obligations.BlockMoveMovesOneByte := by
  intro dd ss s i h r moved
  obtain ⟨d, hexec, hmoved⟩ := exec_blockMove h
  have step (v : Word) : v + d = moved v := by
    rw [← BitVec.one_mul d]; exact (hmoved v 1).symm
  exact ⟨_, hexec s, rfl, rfl, congrArg s.wx.trunc (step s.xe), congrArg s.wx.trunc (step s.ye), rfl,
    blockMove_pc _ _ _ _ s, by rw [cost_blockMove h]; rfl, rfl, blockMove_fields _ _ _ _ s,
    blockMove_keepsMemoryBut _ _ _ _ s⟩

/-- Settles O37: the count runs out with execution `C + 1` and with none before it. -/
theorem blockMoveRunsToItsEnd : Obligations.BlockMoveRunsToItsEnd := by
  intro dd ss s i h moved
  obtain ⟨d, hexec, hmoved⟩ := exec_blockMove h
  refine ⟨fun n hn => ?_, ?_⟩
  · cases n with
    | zero => exact ⟨s, rfl, rfl, rfl⟩
    | succ n =>
      obtain ⟨u, hu, run⟩ := execTimes_blockMove hexec n s (by omega)
      exact ⟨u, hu, run.pc.trans (if_neg (by omega)), run.fields .pbr (by decide)⟩
  · obtain ⟨t, ht, run⟩ := execTimes_blockMove hexec s.c.toNat s le_rfl
    have count : BitVec.ofNat 16 (s.c.toNat + 1) = s.c + 1 := by
      rw [BitVec.ofNat_add, BitVec.ofNat_toNat, BitVec.setWidth_eq]; rfl
    have step (v : Word) : v + BitVec.ofNat 16 (s.c.toNat + 1) * d = moved v := by
      rw [count]; exact (hmoved v (s.c + 1)).symm
    refine ⟨t, ht, ?_, step s.xe ▸ run.x, step s.ye ▸ run.y, run.dbr, run.pc.trans (if_pos rfl), ?_, run.p,
      run.fields, run.memory⟩
    · rw [run.c, count]; bv_omega
    · rw [run.cycles]; push_cast; rfl

end Sys2Proof.Machine

/-! SUPPORT. Arithmetic and logic: the sums of ADC and SBC as their rules compute them and as decimal
numbers, digit by digit, and the flags of the compares and of BIT (43_arith_logic.md R260 to R276). -/

namespace Sys2Proof.Machine

/-! ### Sums by the rules -/

/-- A sum of the model is the sum a rule computes over integers. -/
structure SumOut.Follows (o : SumOut) (r : RuleSum) : Prop where
  value    : (o.value.toNat : Int) = r.value
  overflow : o.overflow = r.overflow
  carry    : o.carry = r.carry

theorem Width.bits_div_four (w : Width) : w.bits / 4 = w.digits := by
  cases w <;> rfl

/-- A residue at a width, as a word, is its number. -/
theorem ofInt_emod_toNat (w : Width) (x : Int) :
    ((BitVec.ofInt 16 (x % 2 ^ w.bits)).toNat : Int) = x % 2 ^ w.bits := by
  rw [BitVec.toNat_ofInt]
  cases w <;> simp only [Width.bits] <;> omega

theorem ofInt_emod_lt (w : Width) (x : Int) : (BitVec.ofInt 16 (x % 2 ^ w.bits)).toNat < 2 ^ w.bits := by
  have h := Int.emod_lt_of_pos x (show (0 : Int) < 2 ^ w.bits by positivity)
  rw [← ofInt_emod_toNat] at h
  exact_mod_cast h

theorem ruleCarry_eq (c : Bool) : (if c then 1 else 0 : Int) = (c.toNat : Int) := by
  cases c <;> rfl

/-- The lowest digits of the rules' loops (R260, R261). -/
theorem int_land_lowDigit (v : Nat) : (v : Int).land 0xF = digitInPlace v 0 := by
  rw [← int_land_digit, pow_zero, mul_one]

/-- The model's sum of two operands is the one R260 computes. -/
theorem adcSum_follows (w : Width) (decimal : Bool) (a b : Word) (c : Bool) :
    (adcSum w decimal a b c).Follows
      (adcRule w.bits decimal a.toNat b.toNat (if c then 1 else 0)) := by
  simp only [adcRule, w.bits_div_four, ruleCarry_eq, int_land_lowDigit, ruleDigit_eq, ruleOverflow_eq]
  exact ⟨ofInt_emod_toNat w _, rfl, rfl⟩

/-- The model's sum of an operand and a complement is the one R261 computes. -/
theorem sbcSum_follows (w : Width) (decimal : Bool) (a b : Word) (c : Bool) :
    (sbcSum w decimal a b c).Follows
      (sbcRule w.bits decimal a.toNat b.toNat (if c then 1 else 0)) := by
  simp only [sbcRule, w.bits_div_four, ruleCarry_eq, int_land_lowDigit, ruleDigit_eq, ruleOverflow_eq]
  exact ⟨ofInt_emod_toNat w _, rfl, rfl⟩

/-- The ones' complement at a width, over integers (R261). -/
theorem xor_mask_cast {w : Width} {b : Word} (hb : b.toNat < 2 ^ w.bits) :
    ((b ^^^ w.mask).toNat : Int) = 2 ^ w.bits - 1 - b.toNat := by
  rw [xor_mask_toNat hb]
  cases w <;> simp only [Width.bits] at hb ⊢ <;> omega

/-- Everything an instruction that leaves a sum in the accumulator does. -/
structure LeavesSum (i : Instr) (o : Operand) (r : SumOut) (s t : State) : Prop where
  acc      : SetsAcc s.wm r.value s t
  nz       : SetsNZ s.wm r.value t
  overflow : t.flag .v = r.overflow
  carry    : t.flag .c = r.carry
  bus      : t.bus = (s.load s.wm o).bus
  finishes : Finishes i (o.len s.wm) s t
  fields   : KeepsFieldsBut [.c, .pc, .cycles] s t
  flags    : KeepsFlagsBut [.n, .v, .z, .c] s t
  memory   : KeepsMemory s t

theorem keepsFlags_of_sumOut {w : Width} {r : SumOut} {s t : State} (h : t.p = (sumOut w r s.p).p) :
    KeepsFlagsBut [.n, .v, .z, .c] s t := by
  intro f hf
  rw [State.flag, h, getFlag_sumOut]
  cases f with
  | n | v | z | c => exact absurd (by decide) hf
  | _ => rfl

/-- An accumulator instruction whose computation is a sum. -/
theorem exec_of_sumOut {i : Instr} {op : AccOp} {o : Operand} {s : State} {r : SumOut}
    (h : i.shape = .acc op o)
    (hr : op.fn s.wm (s.acc s.wm) (s.load s.wm o).value s.p = sumOut s.wm r s.p) :
    ∃ t, exec i s = .next t ∧ LeavesSum i o r s t := by
  have run := accumulate_spec op.fn o i.tableCost s
  have hp := run.p
  have hacc := run.acc
  rw [hr] at hp hacc
  exact ⟨_, exec_of_shape h (by simp) s, {
    acc := setsAcc_accWith hacc
    nz := setsNZ_of_putNZ hp
    overflow := (congrArg (getFlag · .v) hp).trans (getFlag_sumOut _ r s.p .v)
    carry := (congrArg (getFlag · .c) hp).trans (getFlag_sumOut _ r s.p .c)
    bus := run.bus
    finishes := ⟨run.pc, cost_of_shape h s ▸ run.cycles⟩
    fields := run.fields
    flags := keepsFlags_of_sumOut hp
    memory := run.memory }⟩

/-! ### Decimal sums, digit by digit -/

/-- Digit `j` of a number in base 16. -/
def digit (v j : Nat) : Nat := v / 16 ^ j % 16

theorem digitInPlace_eq_digit (v j : Nat) : (digitInPlace v j : Int) = 16 ^ j * digit v j :=
  digitInPlace_eq v j

theorem digit_lt_ten {v : Word} (hv : isDecimal v) {j : Nat} (hj : j < 4) : digit v.toNat j < 10 := by
  obtain ⟨h0, h1, h2, h3⟩ := (isDecimal_iff v).mp hv
  interval_cases j <;> simp only [digit] <;> omega

/-- A complement's digits are those of its operand to 15. -/
theorem digit_xor_mask {w : Width} {b : Word} (hb : b.toNat < 2 ^ w.bits) {j : Nat} (hj : j < w.digits) :
    digit (b ^^^ w.mask).toNat j + digit b.toNat j = 15 := by
  rw [xor_mask_toNat hb]
  simp only [digit]
  cases w <;> simp only [Width.digits, Width.bits] at hj hb ⊢ <;> interval_cases j <;> omega

/-- A decimal number with one more digit above its own. -/
theorem exists_decimal_append {k : Nat} (hk : k < 4) {o : Int} (ho : 0 ≤ o) (ho' : o < 10) {low : Word}
    (hl : low.toNat < 16 ^ k) (hd : isDecimal low) :
    ∃ v : Word, (v.toNat : Int) = 16 ^ k * o + low.toNat ∧ isDecimal v ∧
      (decimalValue v : Int) = 10 ^ k * o + decimalValue low := by
  obtain ⟨n, rfl⟩ := Int.eq_ofNat_of_zero_le ho
  have hv : (BitVec.ofNat 16 (16 ^ k * n + low.toNat)).toNat = 16 ^ k * n + low.toNat := by
    rw [BitVec.toNat_ofNat]
    interval_cases k <;> omega
  rw [isDecimal_iff] at hd
  refine ⟨_, by rw [hv]; push_cast; rfl, ?_, ?_⟩
  · rw [isDecimal_iff, hv]
    interval_cases k <;> omega
  · rw [decimalValue_eq, decimalValue_eq, hv]
    interval_cases k <;> omega

/-- The decimal number that the first `n` digits of two operands sum to, each digit's sum less `e`. -/
def digitsTotal (e : Int) (a b n : Nat) : Int :=
  ∑ j ∈ Finset.range n, 10 ^ j * (digit a j + digit b j - e)

theorem digitsTotal_succ (e : Int) (a b n : Nat) :
    digitsTotal e a b (n + 1) = digitsTotal e a b n + 10 ^ n * (digit a n + digit b n - e) :=
  Finset.sum_range_succ _ n

/-- The loop's sum before the correction of its top digit: `s` at place `k`, above digits that are corrected. -/
structure UncorrectedAt (e : Int) (a b carry k : Nat) (s : Int) (low : Word) : Prop where
  ge      : e ≤ s
  le      : s ≤ 19 + e
  lt      : low.toNat < 16 ^ k
  decimal : isDecimal low
  total   : decimalValue low + 10 ^ k * (s - e) = digitsTotal e a b (k + 1) + carry

/-- A sum of `n` digits, all of them corrected: its low digits are `v`, and what is above them is the carry. -/
structure CorrectedTo (e : Int) (a b carry n : Nat) (r : Int) (v : Word) : Prop where
  value   : (v.toNat : Int) = r % 16 ^ n
  decimal : isDecimal v
  total   : decimalValue v + 10 ^ n * (if r > 16 ^ n - 1 then 1 else 0) = digitsTotal e a b n + carry

/-- A correction of the digit at place `k` that makes a decimal digit and a carry of its sum less `e`. -/
def Corrects (fix : Nat → Int → Int) (e : Int) : Prop :=
  ∀ k < 4, ∀ s low : Int, e ≤ s → s ≤ 19 + e → 0 ≤ low → low < 16 ^ k →
    ∃ o c : Int, DecimalDigit (s - e) o c ∧
      (if fix k (16 ^ k * s + low) > 16 ^ (k + 1) - 1 then (1 : Int) else 0) = c ∧
      fix k (16 ^ k * s + low) % 16 ^ (k + 1) = 16 ^ k * o + low

/-- ADC's correction (R260). -/
def adcCorrect (k : Nat) (r : Int) : Int := if r > 10 * 16 ^ k - 1 then r + 6 * 16 ^ k else r

/-- SBC's correction (R261). -/
def sbcCorrect (k : Nat) (r : Int) : Int := if r ≤ 16 ^ (k + 1) - 1 then r - 6 * 16 ^ k else r

theorem adcDigit_succ (a b : Nat) (r : Int) (k : Nat) :
    adcDigit a b r (k + 1) = digitSum a b (adcCorrect k r) (k + 1) := rfl

theorem sbcDigit_succ (a b : Nat) (r : Int) (k : Nat) :
    sbcDigit a b r (k + 1) = digitSum a b (sbcCorrect k r) (k + 1) := rfl

theorem place_cases {k : Nat} (hk : k < 4) :
    (16 : Int) ^ k = 1 ∨ (16 : Int) ^ k = 16 ∨ (16 : Int) ^ k = 256 ∨ (16 : Int) ^ k = 4096 := by
  interval_cases k <;> norm_num

theorem adcCorrect_corrects : Corrects adcCorrect 0 := by
  intro k hk s low hs hs' hl hl'
  rw [pow_succ', sub_zero]
  exact adc_digit (place_cases hk) hs hs' hl hl'

theorem sbcCorrect_corrects : Corrects sbcCorrect 6 := by
  intro k hk s low hs hs' hl hl'
  simp only [sbcCorrect, pow_succ']
  exact sbc_digit (place_cases hk) hs hs' hl hl'

/-- The correction of the top digit corrects the whole sum. -/
theorem UncorrectedAt.correct {e : Int} {a b carry k : Nat} {s : Int} {low : Word}
    (h : UncorrectedAt e a b carry k s low) {fix : Nat → Int → Int} (hfix : Corrects fix e) (hk : k < 4) :
    ∃ v, CorrectedTo e a b carry (k + 1) (fix k (16 ^ k * s + low.toNat)) v := by
  obtain ⟨o, c, digit, hc, hmod⟩ := hfix k hk s low.toNat h.ge h.le (by omega) (by exact_mod_cast h.lt)
  obtain ⟨v, hv, hd, hval⟩ := exists_decimal_append hk digit.nonneg digit.lt h.lt h.decimal
  refine ⟨v, hv.trans hmod.symm, hd, ?_⟩
  rw [hc, hval, ← h.total, ← digit.sum]
  ring

/-- The next digit comes in above a corrected sum. -/
theorem CorrectedTo.next {e : Int} {a b carry n : Nat} {r : Int} {v : Word}
    (h : CorrectedTo e a b carry n r v) (hge : e ≤ digit a n + digit b n)
    (hle : digit a n + digit b n ≤ 18 + e) :
    ∃ s, digitSum a b r n = 16 ^ n * s + v.toNat ∧ UncorrectedAt e a b carry n s v := by
  obtain ⟨hv, hd, htotal⟩ := h
  have carry_cases := ite_eq_or_eq (r > 16 ^ n - 1) (1 : Int) 0
  have hlt : (v.toNat : Int) < 16 ^ n := hv ▸ Int.emod_lt_of_pos r (by positivity)
  refine ⟨digit a n + digit b n + (if r > 16 ^ n - 1 then 1 else 0), ?_,
    ⟨by omega, by omega, by exact_mod_cast hlt, hd, ?_⟩⟩
  · simp only [digitSum, digitInPlace_eq_digit, hv]
    ring
  · rw [digitsTotal_succ]
    linear_combination htotal

/-- One more digit is one more turn of the loop. -/
theorem digitSerial_succ (turn : Nat → Nat → Int → Nat → Int) (k a b carry : Nat) :
    digitSerial turn (k + 2) a b carry = turn a b (digitSerial turn (k + 1) a b carry) (k + 1) := by
  simp [digitSerial, List.range'_1_concat, Nat.add_comm 1 k]

/-- The loop's sum of `k + 1` digits, where each turn corrects the digit below and adds the next. -/
theorem digitSerial_uncorrected {turn : Nat → Nat → Int → Nat → Int} {fix : Nat → Int → Int} {e : Int}
    (hturn : ∀ a b r k, turn a b r (k + 1) = digitSum a b (fix k r) (k + 1)) (hfix : Corrects fix e)
    {a b carry : Nat} (hcarry : carry ≤ 1) (k : Nat) (hk : k < 4)
    (hdigits : ∀ j ≤ k, e ≤ digit a j + digit b j ∧ (digit a j + digit b j : Int) ≤ 18 + e) :
    ∃ s low, digitSerial turn (k + 1) a b carry = 16 ^ k * s + low.toNat ∧
      UncorrectedAt e a b carry k s low := by
  induction k with
  | zero =>
    obtain ⟨hge, hle⟩ := hdigits 0 le_rfl
    refine ⟨digit a 0 + digit b 0 + carry, 0, ?_, ⟨by omega, by omega, by decide, by unfold isDecimal; decide, ?_⟩⟩
    · simp [digitSerial, digitInPlace_eq_digit]
    · have zero : decimalValue 0 = 0 := by decide
      rw [zero, digitsTotal, Finset.sum_range_one]
      push_cast
      ring
  | succ k ih =>
    obtain ⟨s, low, hr, sum⟩ := ih (by omega) fun j hj => hdigits j (by omega)
    obtain ⟨v, corrected⟩ := sum.correct hfix (by omega)
    obtain ⟨hge, hle⟩ := hdigits (k + 1) le_rfl
    obtain ⟨s', hs', next⟩ := corrected.next hge hle
    exact ⟨s', v, by rw [digitSerial_succ, hturn, hr, hs'], next⟩

/-! ### Decimal sums at a width -/

theorem Width.two_pow_bits (w : Width) : (2 : Int) ^ w.bits = 16 ^ w.digits := by
  cases w <;> norm_num [bits, digits]

theorem Width.digits_le (w : Width) : w.digits ≤ 4 := by
  cases w <;> decide

theorem Width.digits_eq_succ (w : Width) : ∃ k < 4, w.digits = k + 1 := by
  cases w
  · exact ⟨1, by decide, rfl⟩
  · exact ⟨3, by decide, rfl⟩

/-- A word's number is that of the digits of its width. -/
theorem decimalValue_eq_sum {w : Width} {v : Word} (hv : v.toNat < 2 ^ w.bits) :
    (decimalValue v : Int) = ∑ j ∈ Finset.range w.digits, 10 ^ j * (digit v.toNat j : Int) := by
  rw [decimalValue_eq]
  simp only [digit]
  cases w <;> simp only [Width.bits, Width.digits, Finset.sum_range_succ, Finset.sum_range_zero] at hv ⊢ <;> omega

theorem digitsTotal_adc {w : Width} {a b : Word} (ha : a.toNat < 2 ^ w.bits) (hb : b.toNat < 2 ^ w.bits) :
    digitsTotal 0 a.toNat b.toNat w.digits = decimalValue a + decimalValue b := by
  simp only [decimalValue_eq_sum ha, decimalValue_eq_sum hb, digitsTotal, ← Finset.sum_add_distrib, sub_zero,
    mul_add]

/-- The complement's digits to 15, less 6, are the operand's digits to 9. -/
theorem digitsTotal_sbc {w : Width} {a b : Word} (ha : a.toNat < 2 ^ w.bits) (hb : b.toNat < 2 ^ w.bits) :
    digitsTotal 6 a.toNat (b ^^^ w.mask).toNat w.digits =
      decimalValue a - decimalValue b + (10 ^ w.digits - 1) := by
  have nines : (10 : Int) ^ w.digits - 1 = ∑ j ∈ Finset.range w.digits, 10 ^ j * 9 := by cases w <;> rfl
  rw [decimalValue_eq_sum ha, decimalValue_eq_sum hb, nines, ← Finset.sum_sub_distrib, ← Finset.sum_add_distrib]
  refine Finset.sum_congr rfl fun j hj => ?_
  have complement : (digit (b ^^^ w.mask).toNat j : Int) = 15 - digit b.toNat j := by
    have := digit_xor_mask hb (Finset.mem_range.mp hj)
    omega
  rw [complement]
  ring

/-- The loop's sum of all digits of a width, corrected at the top one too. -/
theorem digitSerial_corrected {turn : Nat → Nat → Int → Nat → Int} {fix : Nat → Int → Int} {e : Int}
    (hturn : ∀ a b r k, turn a b r (k + 1) = digitSum a b (fix k r) (k + 1)) (hfix : Corrects fix e)
    {a b : Nat} {w : Width}
    (hdigits : ∀ j < w.digits, e ≤ digit a j + digit b j ∧ (digit a j + digit b j : Int) ≤ 18 + e) (c : Bool) :
    ∃ v, CorrectedTo e a b c.toNat w.digits (fix (w.digits - 1) (digitSerial turn w.digits a b c.toNat)) v := by
  obtain ⟨k, hk, hw⟩ := w.digits_eq_succ
  rw [hw] at hdigits ⊢
  obtain ⟨s, low, hr, sum⟩ := digitSerial_uncorrected hturn hfix (Bool.toNat_le c) k hk fun j hj =>
    hdigits j (Nat.lt_succ_of_le hj)
  rw [hr]
  exact sum.correct hfix hk

/-- A sum at a width that is a decimal number, with the carry out: `total`. -/
structure IsDecimalSum (w : Width) (r : SumOut) (total : Int) : Prop where
  lt      : r.value.toNat < 2 ^ w.bits
  decimal : isDecimal r.value
  sum     : (decimalValue r.value : Int) + (if r.carry then 10 ^ w.digits else 0) = total

/-- A sum at a width whose digits and carry are those of the corrected number `x`. -/
theorem isDecimalSum_of_corrected {w : Width} {e : Int} {a b carry : Nat} {x : Int} {r : SumOut}
    (h : ∃ v, CorrectedTo e a b carry w.digits x v) (hv : r.value = BitVec.ofInt 16 (x % 2 ^ w.bits))
    (hc : r.carry = decide (x > 2 ^ w.bits - 1)) :
    IsDecimalSum w r (digitsTotal e a b w.digits + carry) := by
  obtain ⟨v, hvalue, hdecimal, htotal⟩ := h
  have value : r.value = v := by
    apply BitVec.eq_of_toNat_eq
    zify
    rw [hv, ofInt_emod_toNat, hvalue, w.two_pow_bits]
  have carried : (if r.carry then (10 : Int) ^ w.digits else 0) =
      10 ^ w.digits * (if x > 16 ^ w.digits - 1 then 1 else 0) := by
    rw [hc, w.two_pow_bits]
    simp
  exact ⟨hv ▸ ofInt_emod_lt w x, value ▸ hdecimal, by rw [value, carried, htotal]⟩

/-- The adjustment after ADC's loop is the correction of the top digit (R260). -/
theorem adcCorrect_top (w : Width) (r : Int) : adcCorrect (w.digits - 1) r =
    if true ∧ r > 10 * 16 ^ (w.digits - 1) - 1 then r + 6 * 16 ^ (w.digits - 1) else r :=
  if_congr (and_iff_right rfl).symm rfl rfl

/-- The adjustment after SBC's loop is the correction of the top digit (R261). -/
theorem sbcCorrect_top (w : Width) (r : Int) : sbcCorrect (w.digits - 1) r =
    if true ∧ r ≤ 2 ^ w.bits - 1 then r - 6 * 16 ^ (w.digits - 1) else r := by
  cases w <;> exact if_congr (and_iff_right rfl).symm rfl rfl

section DecimalOperands

variable {w : Width} {a b : Word} (ha : a.toNat < 2 ^ w.bits) (hb : b.toNat < 2 ^ w.bits) (hda : isDecimal a)
  (hdb : isDecimal b) (c : Bool)
include ha hb hda hdb

/-- ADC adds decimal numbers. -/
theorem adcSum_decimal :
    IsDecimalSum w (adcSum w true a b c) (decimalValue a + decimalValue b + c.toNat) := by
  have digits (j) (hj : j < w.digits) :
      0 ≤ (digit a.toNat j + digit b.toNat j : Int) ∧ (digit a.toNat j + digit b.toNat j : Int) ≤ 18 + 0 := by
    have := digit_lt_ten hda (hj.trans_le w.digits_le)
    have := digit_lt_ten hdb (hj.trans_le w.digits_le)
    omega
  rw [← digitsTotal_adc ha hb]
  have corrected := digitSerial_corrected adcDigit_succ adcCorrect_corrects digits c
  rw [adcCorrect_top] at corrected
  exact isDecimalSum_of_corrected corrected rfl rfl

/-- SBC adds the complement of a decimal number to ten's power less 1. -/
theorem sbcSum_decimal : IsDecimalSum w (sbcSum w true a (b ^^^ w.mask) c)
    (decimalValue a - decimalValue b + (10 ^ w.digits - 1) + c.toNat) := by
  have digits (j) (hj : j < w.digits) : 6 ≤ (digit a.toNat j + digit (b ^^^ w.mask).toNat j : Int) ∧
      (digit a.toNat j + digit (b ^^^ w.mask).toNat j : Int) ≤ 18 + 6 := by
    have := digit_lt_ten hda (hj.trans_le w.digits_le)
    have := digit_lt_ten hdb (hj.trans_le w.digits_le)
    have := digit_xor_mask hb hj
    omega
  rw [← digitsTotal_sbc ha hb]
  have corrected := digitSerial_corrected sbcDigit_succ sbcCorrect_corrects digits c
  rw [sbcCorrect_top] at corrected
  exact isDecimalSum_of_corrected corrected rfl rfl

end DecimalOperands

/-- The accumulator read back at the width it was written at. -/
theorem SetsAcc.acc_eq {w : Width} {v : Word} {s t : State} (h : SetsAcc w v s t) : t.acc w = w.trunc v := by
  cases w with
  | w8 =>
    obtain ⟨low, -⟩ := h
    apply BitVec.eq_of_toNat_eq
    rw [State.acc, Width.trunc_toNat, Width.trunc_toNat]
    exact (lowByte_toNat _).symm.trans ((congrArg BitVec.toNat low).trans (lowByte_toNat v))
  | w16 => exact congrArg Width.w16.trunc h

/-- A decimal sum, where the instruction leaves it. -/
theorem LeavesSum.isDecimal {i : Instr} {o : Operand} {r : SumOut} {s t : State} (h : LeavesSum i o r s t)
    {total : Int} (hr : IsDecimalSum s.wm r total) : isDecimal (t.acc s.wm) ∧
      (decimalValue (t.acc s.wm) : Int) + (if t.flag .c then 10 ^ s.wm.digits else 0) = total := by
  rw [h.acc.acc_eq, Width.trunc_of_lt hr.lt, h.carry]
  exact ⟨hr.decimal, hr.sum⟩

/-- A sum with a complement to ten's power less 1 is a difference: no carry out is a borrow. -/
theorem sub_of_add_complement {x a b n carry : Nat} {c : Bool} (hcarry : carry ≤ 1)
    (h : (x : Int) + (if c then 10 ^ n else 0) = a - b + (10 ^ n - 1) + carry) :
    x + b + (1 - carry) = a + (if c then 0 else 10 ^ n) := by
  have cast : (10 : Int) ^ n = (10 ^ n : Nat) := by push_cast; rfl
  rw [cast] at h
  generalize 10 ^ n = power at h ⊢
  cases c with
  | false => rw [if_neg Bool.false_ne_true] at h ⊢; omega
  | true => rw [if_pos rfl] at h ⊢; omega

/-! ### Compares -/

/-- The carry out of `a + (b ^ mask(w)) + 1` says that `b` is not above `a` (R262). -/
theorem compare_carry {w : Width} {a b : Word} (hb : b.toNat < 2 ^ w.bits) :
    decide (a.toNat + (b ^^^ w.mask).toNat + 1 > w.mask.toNat) = decide (b.toNat ≤ a.toNat) := by
  rw [xor_mask_toNat hb, w.mask_toNat, decide_eq_decide]
  omega

/-- At its width, the sum of a compare is the difference (R262). -/
theorem trunc_compare {w : Width} {a b : Word} (hb : b.toNat < 2 ^ w.bits) :
    w.trunc (BitVec.ofNat 16 (a.toNat + (b ^^^ w.mask).toNat + 1)) = w.trunc (a - b) := by
  apply BitVec.eq_of_toNat_eq
  rw [xor_mask_toNat hb, Width.trunc_toNat, Width.trunc_toNat, BitVec.toNat_ofNat, BitVec.toNat_sub]
  have := a.isLt
  cases w <;> simp only [Width.bits] at hb ⊢ <;> omega

/-- The flags of a compare: those of the difference, and the unsigned comparison (R262 to R264). -/
theorem flags_of_compareP {w : Width} {a b : Word} {s t : State} (hb : b.toNat < 2 ^ w.bits)
    (h : t.p = compareP w a b s.p) : t.flag .c = decide (b.toNat ≤ a.toNat) ∧ SetsNZ w (a - b) t ∧
      KeepsFlagsBut [.n, .z, .c] s t := by
  obtain ⟨nz, carry, keeps⟩ := flags_of_shift h
  exact ⟨carry.trans (compare_carry hb), setsNZ_trunc.mp (trunc_compare hb ▸ setsNZ_trunc.mpr nz), keeps⟩

/-! ### Bit tests -/

theorem Width.secondMsb_eq (w : Width) (v : Word) : w.secondMsb v = v.getLsbD (w.bits - 2) := by
  cases w <;> rfl

theorem Width.msb_eq_getLsbD (w : Width) (v : Word) : w.msb v = v.getLsbD (w.bits - 1) := by
  cases w <;> rfl

/-- The flags of BIT on an operand in memory (R268). -/
theorem flags_of_bitP {w : Width} {a b : Word} {s t : State} (h : t.p = bitP w a b s.p) :
    t.flag .z = decide (a &&& b = 0) ∧ t.flag .n = b.getLsbD (w.bits - 1) ∧
      t.flag .v = b.getLsbD (w.bits - 2) ∧ KeepsFlagsBut [.n, .v, .z] s t := by
  have bits (f : Flag) : t.flag f = if f = .v then w.secondMsb b else if f = .n then w.msb b else
      if f = .z then a &&& b == 0 else s.flag f := by
    simp only [State.flag, h, bitP, putTestZ, getFlag_putFlag]
  refine ⟨(bits .z).trans (beq_eq_decide _ _), (bits .n).trans (w.msb_eq_getLsbD b),
    (bits .v).trans (w.secondMsb_eq b), fun f hf => (bits f).trans ?_⟩
  simp only [List.mem_cons, List.not_mem_nil, or_false, not_or] at hf
  obtain ⟨hn, hv, hz⟩ := hf
  rw [if_neg hv, if_neg hn, if_neg hz]

/-! ### Index steps -/

theorem Width.trunc_add_one_toNat {w : Width} {v : Word} (hv : v.toNat < 2 ^ w.bits) :
    (w.trunc (v + 1)).toNat = (v.toNat + 1) % 2 ^ w.bits :=
  ModifyOp.fn_value_toNat .inc w v v hv 0

theorem Width.trunc_sub_one_toNat {w : Width} {v : Word} (hv : v.toNat < 2 ^ w.bits) :
    (w.trunc (v - 1)).toNat = (v.toNat + 2 ^ w.bits - 1) % 2 ^ w.bits :=
  ModifyOp.fn_value_toNat .dec w v v hv 0

/-! ### The statements -/

/-- Settles O38: the accumulator pattern with R260's sum as its result. -/
theorem adcFollowsItsRule : Obligations.AdcFollowsItsRule := by
  intro i o s h w l r
  obtain ⟨t, run, adc⟩ := exec_of_sumOut (s := s) h rfl
  have sum := adcSum_follows w (s.flag .d) (s.acc w) l.value (s.flag .c)
  exact ⟨t, _, run, sum.value, adc.acc, adc.nz, adc.overflow.trans sum.overflow, adc.carry.trans sum.carry,
    adc.bus, adc.finishes, adc.fields, adc.flags, adc.memory⟩

/-- Settles O39: the accumulator pattern with R261's sum as its result, the operand complemented. -/
theorem sbcFollowsItsRule : Obligations.SbcFollowsItsRule := by
  intro i o s h w l r
  obtain ⟨t, run, sbc⟩ := exec_of_sumOut (s := s) h rfl
  have sum : SumOut.Follows _ r :=
    xor_mask_cast (s.load_lt w o) ▸ sbcSum_follows w (s.flag .d) (s.acc w) (l.value ^^^ w.mask) (s.flag .c)
  exact ⟨t, _, run, sum.value, sbc.acc, sbc.nz, sbc.overflow.trans sum.overflow, sbc.carry.trans sum.carry,
    sbc.bus, sbc.finishes, sbc.fields, sbc.flags, sbc.memory⟩

/-- Settles O40: ADC and SBC leave their sum in the accumulator, and on decimal operands it is decimal. -/
theorem decimalModeIsDecimalArithmetic : Obligations.DecimalModeIsDecimalArithmetic := by
  intro i o s hd w b carry hacc hb
  have hcarry : (s.flag .c).toNat = carry := by
    simp only [carry]
    cases s.flag .c <;> rfl
  refine ⟨fun h => ?_, fun h => ?_⟩
  · obtain ⟨t, run, adc⟩ := exec_of_sumOut (s := s) h rfl
    have sum := adcSum_decimal (s.acc_lt w) (s.load_lt w o) hacc hb (s.flag .c)
    rw [← hd, hcarry] at sum
    obtain ⟨decimal, value⟩ := adc.isDecimal sum
    refine ⟨t, run, decimal, ?_⟩
    zify
    exact value
  · obtain ⟨t, run, sbc⟩ := exec_of_sumOut (s := s) h rfl
    have sum := sbcSum_decimal (s.acc_lt w) (s.load_lt w o) hacc hb (s.flag .c)
    rw [← hd, hcarry] at sum
    obtain ⟨decimal, value⟩ := sbc.isDecimal sum
    exact ⟨t, run, decimal, sub_of_add_complement (hcarry ▸ (s.flag .c).toNat_le) value⟩

/-- Settles O41: a compare is a test pattern, and its flags are those of the difference. -/
theorem comparesSetOnlyFlags : Obligations.ComparesSetOnlyFlags := by
  intro i r o s h w a l
  have compare := testOperand_spec compareP w a o i.tableCost s
  obtain ⟨carry, nz, keeps⟩ := flags_of_compareP (s.load_lt w o) compare.p
  exact ⟨_, exec_of_shape h (by simp) s, carry, nz, compare.bus,
    ⟨compare.pc, cost_of_shape h s ▸ compare.cycles⟩, compare.fields, keeps, compare.memory⟩

/-- Settles O42: the accumulator pattern with the bitwise result. -/
theorem logicOperatesBitwise : Obligations.LogicOperatesBitwise := by
  intro i op o s h hop w l v
  have logic := accumulate_spec op.fn o i.tableCost s
  have out : op.fn w (s.acc w) l.value s.p = nzOut w v s.p := by
    rcases hop with rfl | rfl | rfl <;> rfl
  have hp := logic.p
  have hacc := logic.acc
  rw [out] at hp hacc
  exact ⟨_, exec_of_shape h (by simp) s, setsAcc_accWith hacc, setsNZ_of_putNZ hp, logic.bus,
    ⟨logic.pc, cost_of_shape h s ▸ logic.cycles⟩, logic.fields, keepsFlags_of_putNZ hp, logic.memory⟩

/-- Settles O43: a test pattern, which sets N and V for an operand in memory only. -/
theorem bitTestsTheOperand : Obligations.BitTestsTheOperand := by
  intro i o s h w l
  have bit := testOperand_spec (bitFn o) w (s.acc w) o i.tableCost s
  have finishes : Finishes i (o.len w) s _ := ⟨bit.pc, cost_of_shape h s ▸ bit.cycles⟩
  cases o with
  | imm _ =>
    obtain ⟨zero, keeps⟩ := flags_of_putTestZ bit.p
    exact ⟨_, exec_of_shape h (by simp) s, zero, keeps, bit.bus, finishes, bit.fields, bit.memory⟩
  | mem _ =>
    obtain ⟨zero, sign, second, keeps⟩ := flags_of_bitP bit.p
    exact ⟨_, exec_of_shape h (by simp) s, zero, ⟨sign, second, keeps⟩, bit.bus, finishes,
      bit.fields, bit.memory⟩

/-- Settles O45: a step of an index is a transfer into it of the stepped value. -/
theorem indexStepsWrapAtTheirWidth : Obligations.IndexStepsWrapAtTheirWidth := by
  intro s
  exact ⟨
    ⟨_, rfl, Width.trunc_add_one_toNat s.xe_lt, transferToX_setsNZ _ _ s,
      transferToX_registerOnly rfl tableCost_inx _ s⟩,
    ⟨_, rfl, Width.trunc_add_one_toNat s.ye_lt, transferToY_setsNZ _ _ s,
      transferToY_registerOnly rfl tableCost_iny _ s⟩,
    ⟨_, rfl, Width.trunc_sub_one_toNat s.xe_lt, transferToX_setsNZ _ _ s,
      transferToX_registerOnly rfl tableCost_dex _ s⟩,
    ⟨_, rfl, Width.trunc_sub_one_toNat s.ye_lt, transferToY_setsNZ _ _ s,
      transferToY_registerOnly rfl tableCost_dey _ s⟩⟩

end Sys2Proof.Machine

/-! SUPPORT. Control transfers: branch targets by number, what a jump, a call and a return do besides setting
the program address, and a return after its call (45_control.md R310 to R326). -/

namespace Sys2Proof.Machine

/-! ### Targets by number -/

/-- A displacement counts from the next instruction and wraps within the bank (41_addressing.md R206). -/
theorem add_displacement_toNat (pc d : Word) (len : Nat) :
    ((pc + BitVec.ofNat 16 len + d).toNat : Int) = ((pc.toNat : Int) + len + d.toInt) % 2 ^ 16 := by
  rw [BitVec.toNat_add, add_ofNat_toNat, BitVec.toInt_eq_toNat_cond]
  split <;> omega

theorem signExtend8_toInt (r : Byte) : (signExtend8 r).toInt = r.toInt :=
  BitVec.toInt_signExtend_of_le (by decide)

/-- Two words lie in different pages when their high bytes differ. -/
theorem highByte_bne (u v : Word) : (highByte u != highByte v) = (u.toNat / 256 != v.toNat / 256) := by
  rw [← highByte_toNat, ← highByte_toNat, Bool.eq_iff_iff, bne_iff_ne, bne_iff_ne, ne_eq, ne_eq, BitVec.toNat_inj]

theorem bankOf_offsetOf_toNat (a : Address) : (bankOf a).toNat * 0x10000 + (offsetOf a).toNat = a.toNat := by
  rw [bankOf_toNat, offsetOf_toNat]
  exact Nat.div_add_mod' a.toNat 65536

/-! ### Frames -/

theorem KeepsFieldsBut.refl (s : State) : KeepsFieldsBut [] s s := s.withBus_fields s.bus

/-- A field that has its value again need not be named. -/
theorem KeepsFieldsBut.of_cons {f : Field} {fs : List Field} {s t : State} (h : KeepsFieldsBut (f :: fs) s t)
    (hf : f.Same s t) : KeepsFieldsBut fs s t := by
  intro g hg
  by_cases hgf : g = f
  · exact hgf ▸ hf
  · exact h g (by simp [hgf, hg])

theorem State.push16_fields (s : State) (v : Word) : KeepsFieldsBut [.sp] s (s.push16 v) :=
  (s.push8_fields _).trans (State.push8_fields _ _)

theorem State.push24_fields (s : State) (bank : Byte) (v : Word) : KeepsFieldsBut [.sp] s (s.push24 bank v) :=
  (s.push8_fields bank).trans (State.push16_fields _ v)

theorem State.addToCycles_fields (s : State) (n : Nat) : KeepsFieldsBut [.cycles] s (s.addToCycles n) := by
  intro f hf
  cases f with
  | cycles => exact absurd (by decide) hf
  | _ => rfl

theorem State.setProgramAddress_fields (s : State) (bank : Byte) (o : Word) :
    KeepsFieldsBut [.pbr, .pc] s (s.setProgramAddress bank o) := by
  intro f hf
  cases f with
  | pbr | pc => exact absurd (by decide) hf
  | _ => rfl

/-! ### What every control transfer does -/

/-- What an instruction that sets the program address does, the target, S and the bus aside. -/
structure Redirects (i : Instr) (fs : List Field) (s t : State) : Prop where
  cycles : t.cycles = s.cycles + i.cost s
  p      : t.p = s.p
  fields : KeepsFieldsBut fs s t

section Redirects

variable {i : Instr} {fs : List Field} {s u : State} {cyc : Nat} (hcost : i.cost s = cyc)
  (hu : KeepsFieldsBut fs s u) (hcycles : .cycles ∉ fs) (hp : u.p = s.p)
include hcost hu hcycles hp

/-- The end of a transfer to any bank, after pushes, pulls and reads that wrote `fs`. -/
theorem redirects_far (bank : Byte) (o : Word) :
    Redirects i (fs ++ [.pbr, .pc, .cycles]) s ((u.setProgramAddress bank o).addToCycles cyc) where
  cycles := by rw [hcost]; exact congrArg (· + (cyc : Int)) (hu .cycles hcycles)
  p := hp
  fields := hu.append ((u.setProgramAddress_fields bank o).append (State.addToCycles_fields _ cyc))

/-- The end of a transfer within the program bank. -/
theorem redirects_near {bank : Byte} (hbank : bank = u.pbr) (o : Word) :
    Redirects i (fs ++ [.pc, .cycles]) s ((u.setProgramAddress bank o).addToCycles cyc) := by
  have far := redirects_far hcost hu hcycles hp bank o
  have moved : KeepsFieldsBut [.pc, .cycles] u ((u.setProgramAddress bank o).addToCycles cyc) :=
    ((u.setProgramAddress_fields bank o).append (State.addToCycles_fields _ cyc)).of_cons hbank
  exact ⟨far.cycles, far.p, hu.append moved⟩

end Redirects

/-! ### Branches -/

theorem branch_pc_toNat (cond : Bool) (r : Byte) (k : Cost) (s : State) :
    ((branch cond r k s).pc.toNat : Int) =
      if cond then ((s.pc.toNat : Int) + 2 + r.toInt) % 2 ^ 16 else ((s.pc.toNat : Int) + 2) % 2 ^ 16 := by
  cases cond with
  | true => exact signExtend8_toInt r ▸ add_displacement_toNat s.pc (signExtend8 r) 2
  | false => exact (congrArg Nat.cast (add_ofNat_toNat s.pc 2)).trans (by push_cast; rfl)

/-- A branch reads its page-cross bit off the high bytes, the table off the numbers (R310). -/
theorem branch_redirects {i : Instr} {cond : Option (Flag × Bool)} {r : Byte} (h : i.shape = .branch cond r)
    (s : State) : Redirects i [.pc, .cycles] s (branch (branchTaken cond s) r i.tableCost s) := by
  have cost : i.cost s = cycleCost i.tableCost s
      (highByte (s.pc + 2 + signExtend8 r) != highByte (s.pc + 2)) (branchTaken cond s) := by
    rw [highByte_bne]
    exact cost_of_shape h s
  exact redirects_near cost (.refl s) (by decide) rfl rfl _

/-! ### Jumps, calls and returns -/

section Jumps

variable {i : Instr} {k : Cost} (hi : i.shape = .other) (hk : i.tableCost = k) (s : State)
include hi hk

theorem cost_eq_plainCost : i.cost s = plainCost k s := hk ▸ cost_of_other hi s

theorem branchLong_redirects (r : Word) : Redirects i [.pc, .cycles] s (branchLong r k s) :=
  redirects_near (cost_eq_plainCost hi hk s) (.refl s) (by decide) rfl rfl _

theorem jump_redirects (target : Word) : Redirects i [.pc, .cycles] s (jump s.pbr target k s) :=
  redirects_near (cost_eq_plainCost hi hk s) (.refl s) (by decide) rfl rfl target

theorem jump_redirects_far (bank : Byte) (target : Word) :
    Redirects i [.pbr, .pc, .cycles] s (jump bank target k s) :=
  redirects_far (cost_eq_plainCost hi hk s) (.refl s) (by decide) rfl bank target

theorem jumpThrough_redirects (l : Loc) : Redirects i [.pc, .cycles] s (jumpThrough l k s) :=
  redirects_near (cost_eq_plainCost hi hk s) (s.withBus_fields (s.bus.read2 l).bus) (by decide) rfl rfl _

theorem jumpThroughLong_redirects (l : Loc) :
    Redirects i [.pbr, .pc, .cycles] s (jumpThroughLong l k s) :=
  redirects_far (cost_eq_plainCost hi hk s) (s.withBus_fields (s.bus.read3 l).bus) (by decide) rfl _ _

theorem callAbs_redirects (target : Word) : Redirects i [.sp, .pc, .cycles] s (callAbs target k s) :=
  redirects_near (cost_eq_plainCost hi hk s) (s.push16_fields _) (by decide) rfl rfl target

theorem callThrough_redirects (a : Word) : Redirects i [.sp, .pc, .cycles] s (callThrough a k s) :=
  redirects_near (cost_eq_plainCost hi hk s) ((s.push16_fields _).append (State.withBus_fields _ _)) (by decide)
    rfl rfl _

theorem callLong_redirects (a : Address) : Redirects i [.sp, .pbr, .pc, .cycles] s (callLong a k s) :=
  redirects_far (cost_eq_plainCost hi hk s) (s.push24_fields _ _) (by decide) rfl _ _

theorem returnShort_redirects : Redirects i [.sp, .pc, .cycles] s (returnShort k s) :=
  redirects_near (cost_eq_plainCost hi hk s) s.pull16_fields (by decide) rfl rfl _

theorem returnLong_redirects : Redirects i [.sp, .pbr, .pc, .cycles] s (returnLong k s) :=
  redirects_far (cost_eq_plainCost hi hk s) (s.pull16_fields.trans (State.pull8_fields _)) (by decide) rfl _ _

end Jumps

/-- The pointer read of JSR `(abs,X)` comes after its push and leaves every byte as the push left it. -/
theorem callThrough_onlyRead (a : Word) (k : Cost) (s : State) :
    (s.push16 (s.pc + 2)).bus.OnlyRead (callThrough a k s).bus := Bus.onlyRead_read2 _ _

theorem callThrough_onlyStored (a : Word) (k : Cost) (s : State) :
    s.bus.OnlyStored (pushSlots s.e 2 s.sp) (callThrough a k s).bus :=
  (s.onlyStored_push16 _).trans (callThrough_onlyRead a k s).stored

theorem returnLong_onlyRead (k : Cost) (s : State) : s.bus.OnlyRead (returnLong k s).bus :=
  s.onlyRead_pull16.trans (State.onlyRead_pull8 _)

/-! ### A return after its call -/

section ReturnAfterCall

variable {s u : State} (hb : s.bus.wf) (hp : s.e = true → highByte s.sp = 0x01) (he : u.e = s.e)
include hb hp he

/-- A pull of two bytes in a state whose stack was pushed: the later byte is the low one. -/
theorem State.pull16_pushed {bytes : List Byte} (hn : bytes.length < 256)
    (hh : ∀ a ∈ pushSlots s.e bytes.length s.sp, s.bus.Holds a) {j : Nat} (hj : j + 1 < bytes.length)
    (hsp : u.sp = (stackDown s.e)^[j + 2] s.sp) (hbus : ∀ a, u.bus.peek a = (s.pushes bytes).bus.peek a) :
    u.pull16 = { val := joinBytes bytes[j] bytes[j + 1], st := { u with sp := (stackDown s.e)^[j] s.sp } } := by
  have low := pull8_pushed hn hb hp hh hj he hsp hbus
  have high := pull8_pushed (u := { u with sp := (stackDown s.e)^[j + 1] s.sp }) hn hb hp hh
    (Nat.lt_of_succ_lt hj) he rfl hbus
  simp only [pull16, low, high]

/-- RTS's pull, where the stack is as JSR's push left it. -/
theorem State.pull16_after_push16 (hh : ∀ a ∈ pushSlots s.e 2 s.sp, s.bus.Holds a) {v : Word}
    (hsp : u.sp = (s.push16 v).sp) (hbus : ∀ a, u.bus.peek a = (s.push16 v).bus.peek a) :
    u.pull16 = { val := v, st := { u with sp := s.sp } } := by
  have pulled := pull16_pushed (bytes := [highByte v, lowByte v]) (j := 0) hb hp he (by simp) hh (by simp) hsp hbus
  rwa [List.getElem_cons_zero, List.getElem_cons_succ, List.getElem_cons_zero, joinBytes_highByte_lowByte] at pulled

/-- RTL's pulls, where the stack is as JSL's push left it: the word, then the bank pushed before it. -/
theorem State.pulls_after_push24 (hh : ∀ a ∈ pushSlots s.e 3 s.sp, s.bus.Holds a) {bank : Byte} {v : Word}
    (hsp : u.sp = (s.push24 bank v).sp) (hbus : ∀ a, u.bus.peek a = (s.push24 bank v).bus.peek a) :
    u.pull16.val = v ∧ u.pull16.st.pull8 = { val := bank, st := { u with sp := s.sp } } := by
  have word := pull16_pushed (bytes := [bank, highByte v, lowByte v]) (j := 1) hb hp he (by simp) hh (by simp)
    hsp hbus
  rw [word]
  exact ⟨joinBytes_highByte_lowByte v,
    pull8_pushed (bytes := [bank, highByte v, lowByte v]) (j := 0) (by simp) hb hp hh (by simp) he rfl hbus⟩

end ReturnAfterCall

/-- Either JSR leaves the address of its last byte on the stack. -/
theorem exec_jsr {a : Word} {i : Instr} (h : i = .jsrJabs a ∨ i = .jsrIabsx a) (s : State) :
    ∃ u, exec i s = .next u ∧ u.sp = (s.push16 (s.pc + 2)).sp ∧
      (∀ x, u.bus.peek x = (s.push16 (s.pc + 2)).bus.peek x) ∧ Redirects i [.sp, .pc, .cycles] s u := by
  rcases h with rfl | rfl
  · exact ⟨_, rfl, rfl, fun _ => rfl, callAbs_redirects rfl (tableCost_jsrJabs a) s a⟩
  · exact ⟨_, rfl, rfl, (callThrough_onlyRead a _ s).peek, callThrough_redirects rfl (tableCost_jsrIabsx a) s a⟩

/-! ### The statements -/

/-- Settles O46: the branch pattern, with the condition the shape names. -/
theorem branchesGoWhereTheirFlagSays : Obligations.BranchesGoWhereTheirFlagSays := by
  intro i cond r s h
  have branch := branch_redirects h s
  exact ⟨_, exec_of_shape h (by simp) s, branch_pc_toNat _ r _ s, branch.cycles, branch.p, rfl, branch.fields,
    fun _ => rfl⟩

/-- Settles O47, form by form. -/
theorem jumpsGoToTheirTarget : Obligations.JumpsGoToTheirTarget := by
  intro s
  refine ⟨fun r => ?_, fun a => ?_, fun a => ?_, fun a => ?_, fun a => ?_, fun a => ?_⟩
  · have brl := branchLong_redirects rfl (tableCost_brl r) s r
    exact ⟨_, rfl, add_displacement_toNat s.pc r 3, rfl, brl.cycles, brl.p, brl.fields, fun _ => rfl⟩
  · have jmp := jump_redirects rfl (tableCost_jmpJabs a) s a
    exact ⟨_, rfl, rfl, rfl, jmp.cycles, jmp.p, jmp.fields, fun _ => rfl⟩
  · have jmp := jumpThrough_redirects rfl (tableCost_jmpIabs a) s (.bank0 a)
    exact ⟨_, rfl, rfl, rfl, jmp.cycles, jmp.p, jmp.fields, (Bus.onlyRead_read2 _ _).keepsMemory⟩
  · have jmp := jumpThrough_redirects rfl (tableCost_jmpIabsx a) s (s.indexedPointer a)
    exact ⟨_, rfl, rfl, rfl, jmp.cycles, jmp.p, jmp.fields, (Bus.onlyRead_read2 _ _).keepsMemory⟩
  · have jml := jump_redirects_far rfl (tableCost_jmlJlong a) s (bankOf a) (offsetOf a)
    exact ⟨_, rfl, bankOf_offsetOf_toNat a, rfl, jml.cycles, jml.p, jml.fields, fun _ => rfl⟩
  · have jml := jumpThroughLong_redirects rfl (tableCost_jmlIlabs a) s (.bank0 a)
    exact ⟨_, rfl, bankOf_offsetOf_toNat _, rfl, jml.cycles, jml.p, jml.fields,
      (Bus.onlyRead_read3 _ _).keepsMemory⟩

/-- Settles O48, instruction by instruction. -/
theorem callsPushAndReturnsPull : Obligations.CallsPushAndReturnsPull := by
  intro s
  refine ⟨fun a => ?_, fun a => ?_, fun a => ?_, ?_, ?_⟩
  · have jsr := callAbs_redirects rfl (tableCost_jsrJabs a) s a
    exact ⟨_, rfl, rfl, rfl, rfl, jsr.cycles, jsr.p, jsr.fields, (s.onlyStored_push16 _).keepsMemoryBut⟩
  · have jsr := callThrough_redirects rfl (tableCost_jsrIabsx a) s a
    exact ⟨_, rfl, rfl, rfl, rfl, jsr.cycles, jsr.p, jsr.fields, (callThrough_onlyStored a _ s).keepsMemoryBut⟩
  · have jsl := callLong_redirects rfl (tableCost_jsl a) s a
    exact ⟨_, rfl, bankOf_offsetOf_toNat a, rfl, rfl, jsl.cycles, jsl.p, jsl.fields,
      (s.onlyStored_push24 _ _).keepsMemoryBut⟩
  · have rts := returnShort_redirects rfl tableCost_rts s
    exact ⟨_, rfl, rfl, rfl, rfl, rts.cycles, rts.p, rts.fields, s.onlyRead_pull16.keepsMemory⟩
  · have rtl := returnLong_redirects rfl tableCost_rtl s
    exact ⟨_, rfl, rfl, rfl, rfl, rfl, rtl.cycles, rtl.p, rtl.fields, (returnLong_onlyRead _ s).keepsMemory⟩

/-- Settles O49: the return pulls what its call pushed, and S is back. -/
theorem returnComesBackFromCall : Obligations.ReturnComesBackFromCall := by
  intro s hb hp
  refine ⟨fun a i h hh => ?_, fun a hh => ?_⟩
  · obtain ⟨u, hu, hsp, hbus, call⟩ := exec_jsr h s
    have ret := returnShort_redirects rfl tableCost_rts u
    have pulled := State.pull16_after_push16 hb hp (call.fields .e (by decide)) hh hsp hbus
    refine ⟨u, _, hu, rfl, ?_, ret.p.trans call.p, (call.fields.trans ret.fields).of_cons ?_⟩
    · exact (congrArg (·.val + 1) pulled).trans (BitVec.add_assoc s.pc 2 1)
    · exact congrArg (·.st.sp) pulled
  · have call := callLong_redirects rfl (tableCost_jsl a) s a
    have ret := returnLong_redirects rfl tableCost_rtl (callLong a ⟨8, []⟩ s)
    obtain ⟨word, bank⟩ := State.pulls_after_push24 (u := callLong a ⟨8, []⟩ s) hb hp rfl hh rfl fun _ => rfl
    refine ⟨_, _, rfl, rfl, ?_, ret.p.trans call.p, ((call.fields.trans ret.fields).of_cons ?_).of_cons ?_⟩
    · exact (congrArg (· + 1) word).trans (BitVec.add_assoc s.pc 3 1)
    · exact congrArg (·.st.sp) bank
    · exact congrArg Got.val bank

end Sys2Proof.Machine

/-! SUPPORT. The stack instructions: what a push and a pull leave alone, at either width, and the register and
the flags a pull sets (46_stack.md R340 to R355). -/

namespace Sys2Proof.Machine

/-! ### Frames -/

theorem State.withDbr_fields (s : State) (v : Byte) : KeepsFieldsBut [.dbr] s { s with dbr := v } := by
  intro f hf
  cases f with
  | dbr => exact absurd (by decide) hf
  | _ => rfl

theorem State.writeP_fields (s : State) (v : Byte) : KeepsFieldsBut [.x, .y] s (s.writeP v) :=
  s.withRegisters_fields (hx := .inl (by decide)) (hy := .inl (by decide))

theorem State.pushW_fields (s : State) (w : Width) (v : Word) : KeepsFieldsBut [.sp] s (s.pushW w v) := by
  cases w
  · exact s.push8_fields _
  · exact s.push16_fields v

/-- The end of an instruction whose accesses left the program address and the counter alone. -/
theorem finishes_finish {i : Instr} {k : Cost} {s u : State} (hi : i.shape = .other) (hk : i.tableCost = k)
    (hpc : u.pc = s.pc) (hc : u.cycles = s.cycles) (len : Nat) :
    Finishes i len s (u.finish len (plainCost k s)) :=
  ⟨congrArg (· + BitVec.ofNat 16 len) hpc,
    by rw [cost_eq_plainCost hi hk s]; exact congrArg (· + (plainCost k s : Int)) hc⟩

/-! ### Pushes -/

/-- A push at a width that a predicate selects. -/
theorem State.pushW_ofNarrow (s : State) (narrow : Bool) (v : Word) :
    s.pushW (.ofNarrow narrow) v = if narrow then s.push8 (lowByte v) else s.push16 v := by
  cases narrow <;> rfl

/-- PHA's push: A, or all of C (R340). -/
theorem State.pushW_acc (s : State) :
    s.pushW s.wm (s.acc s.wm) = if s.accIs8 then s.push8 s.a else s.push16 s.c := by
  rw [acc, wm, pushW_ofNarrow, lowByte_trunc]
  cases s.accIs8
  · exact congrArg s.push16 (Width.trunc_w16 s.c)
  · rfl

section Pushes

variable {i : Instr} {k : Cost} {s : State} (hi : i.shape = .other) (hk : i.tableCost = k)
include hi hk

/-- Pushes that write only S and their own slots, then the end of the instruction. -/
theorem pushes_of {u : State} {len bytes : Nat} (h : exec i s = .next (u.finish len (plainCost k s)))
    (hp : u.p = s.p) (hu : KeepsFieldsBut [.sp] s u) (hb : s.bus.OnlyStored (pushSlots s.e bytes s.sp) u.bus) :
    Pushes i len bytes s u :=
  ⟨_, h, rfl, rfl, hp, finishes_finish hi hk (hu .pc (by decide)) (hu .cycles (by decide)) len,
    hu.append (u.finish_fields _ _), hb.keepsMemoryBut⟩

theorem pushByte_pushes {v : Byte} (h : exec i s = .next (pushByte v k s)) : Pushes i 1 1 s (s.push8 v) :=
  pushes_of hi hk h rfl (s.push8_fields v) (s.onlyStored_push8 v)

theorem pushRegister_pushes {w : Width} {v : Word} (h : exec i s = .next (pushRegister w v k s)) :
    Pushes i 1 w.bytes s (s.pushW w v) :=
  pushes_of hi hk h (s.pushW_p w v) (s.pushW_fields w v) (s.onlyStored_pushW w v)

theorem pushWord_pushes {v : Word} {len : Nat} (h : exec i s = .next (pushWord v len k s)) :
    Pushes i len 2 s (s.push16 v) :=
  pushes_of hi hk h rfl (s.push16_fields v) (s.onlyStored_push16 v)

/-- PEI's pointer read comes before its push and writes nothing. -/
theorem pushIndirect_pushes {d : Byte} (h : exec i s = .next (pushIndirect d k s)) :
    let p := s.bus.read2 (s.dpLoc d.toNat false)
    Pushes i 2 2 s ((s.withBus p.bus).push16 p.val) :=
  pushes_of hi hk h rfl ((s.withBus_fields _).append (State.push16_fields _ _))
    (s.onlyStored_push16_withBus (Bus.onlyRead_read2 _ _) _)

end Pushes

/-! ### Pulls -/

/-- What a pull does besides giving its value: S moves and the bus is read. -/
structure State.Pulled (s u : State) : Prop where
  fields : KeepsFieldsBut [.sp] s u
  p      : u.p = s.p
  read   : s.bus.OnlyRead u.bus

theorem State.pulled_pull8 (s : State) : s.Pulled s.pull8.st := ⟨s.pull8_fields, rfl, s.onlyRead_pull8⟩

theorem State.pulled_pull16 (s : State) : s.Pulled s.pull16.st := ⟨s.pull16_fields, rfl, s.onlyRead_pull16⟩

theorem State.pulled_pullW (s : State) (w : Width) : s.Pulled (s.pullW w).st :=
  ⟨s.pullW_fields w, s.pullW_st_p w, s.onlyRead_pullW w⟩

/-- The value of a pull at a width, by number: one byte, or two. -/
theorem State.pullW_val_toNat (s : State) (w : Width) :
    (s.pullW w).val.toNat = if w = .w8 then s.pull8.val.toNat else s.pull16.val.toNat := by
  cases w
  · exact zeroExtend8_toNat _
  · rfl

theorem State.trunc_pullW (s : State) (w : Width) : w.trunc (s.pullW w).val = (s.pullW w).val :=
  Width.trunc_of_lt (s.pullW_lt w)

/-- A pull leaves B for `SetAcc` as it was. -/
theorem State.accWith_pullW (s : State) (w : Width) (v : Word) : (s.pullW w).st.accWith w v = s.accWith w v := by
  simp [accWith]

/-- The flags of a byte, read off the byte itself. -/
theorem setsNZ_zeroExtend8 {v : Byte} {t : State} (h : SetsNZ .w8 (zeroExtend8 v) t) :
    t.flag .n = v.getLsbD 7 ∧ t.flag .z = decide (v = 0) := by
  obtain ⟨hn, hz⟩ := h
  have zero : Width.w8.trunc (zeroExtend8 v) = 0 ↔ v = 0 := by
    rw [Width.trunc_of_lt (by rw [zeroExtend8_toNat]; exact v.isLt)]
    exact ⟨fun h => (lowByte_zeroExtend8 v).symm.trans (congrArg lowByte h), by rintro rfl; rfl⟩
  exact ⟨hn.trans (by simp [Width.msb, zeroExtend8]), hz.trans (decide_eq_decide.mpr zero)⟩

/-- What a pull of `v` into the register `f` does, the register aside; `u` is the state after the pull. -/
structure PullsInto (f : Field) (i : Instr) (w : Width) (v : Word) (s u t : State) : Prop where
  nz       : SetsNZ w v t
  bus      : t.bus = u.bus
  sp       : t.sp = u.sp
  finishes : Finishes i 1 s t
  fields   : KeepsFieldsBut [f, .sp, .pc, .cycles] s t
  flags    : KeepsFlagsBut [.n, .z] s t
  memory   : KeepsMemory s t

section Pulls

variable {i : Instr} {k : Cost} (hi : i.shape = .other) (hk : i.tableCost = k)
include hi hk

/-- A pull, its register written (`u'`), N and Z set, and the end of a one-byte instruction. -/
theorem pullsInto_of {f : Field} {s u u' : State} (hu : s.Pulled u) (hf : ∀ g ∈ [Field.sp, .pc, .cycles], g ∉ [f])
    (hw : KeepsFieldsBut [f] u u') (hb : u'.bus = u.bus) (hp : u'.p = u.p) (w : Width) (v : Word) :
    PullsInto f i w v s u ((u'.setNZ w v).finish 1 (plainCost k s)) where
  nz := setsNZ_of_putNZ rfl
  bus := hb
  sp := hw .sp (hf _ (by decide))
  finishes := finishes_finish hi hk ((hw .pc (hf _ (by decide))).trans (hu.fields .pc (by decide)))
    ((hw .cycles (hf _ (by decide))).trans (hu.fields .cycles (by decide))) 1
  fields := (hu.fields.append (hw.append ((u'.setNZ_fields w v).append (State.finish_fields _ _ _)))).mono
    (List.Perm.swap f .sp _).subset
  flags := keepsFlags_of_putNZ (congrArg (putNZ w v) (hp.trans hu.p))
  memory := Bus.OnlyRead.keepsMemory (hb ▸ hu.read)

variable (s : State)

theorem pullAcc_pullsInto : PullsInto .c i s.wm (s.pullW s.wm).val s (s.pullW s.wm).st (pullAcc k s) :=
  pullsInto_of hi hk (s.pulled_pullW _) (by decide) (State.withC_fields _ ((s.pullW s.wm).st.accWith s.wm (s.pullW s.wm).val)) rfl rfl _ _

theorem pullX_pullsInto : PullsInto .x i s.wx (s.pullW s.wx).val s (s.pullW s.wx).st (pullX k s) :=
  pullsInto_of hi hk (s.pulled_pullW _) (by decide) (State.setX_fields _ _ _) rfl rfl _ _

theorem pullY_pullsInto : PullsInto .y i s.wx (s.pullW s.wx).val s (s.pullW s.wx).st (pullY k s) :=
  pullsInto_of hi hk (s.pulled_pullW _) (by decide) (State.setY_fields _ _ _) rfl rfl _ _

theorem pullDataBank_pullsInto :
    PullsInto .dbr i .w8 (zeroExtend8 s.pull8.val) s s.pull8.st (pullDataBank k s) :=
  pullsInto_of hi hk s.pulled_pull8 (by decide) (State.withDbr_fields _ s.pull8.val) rfl rfl _ _

theorem pullDirect_pullsInto : PullsInto .d i .w16 s.pull16.val s s.pull16.st (pullDirect k s) :=
  pullsInto_of hi hk s.pulled_pull16 (by decide) (State.withD_fields _ s.pull16.val) rfl rfl _ _

end Pulls

/-- PLP writes P as `WriteP` does, so the indexes with it (R350). -/
theorem pullStatus_writesP (k : Cost) (s : State) : WritesP s.pull8.val s (pullStatus k s) :=
  writesP_of_writeP rfl rfl rfl

theorem pullStatus_fields (k : Cost) (s : State) :
    KeepsFieldsBut [.x, .y, .sp, .pc, .cycles] s (pullStatus k s) :=
  (s.pull8_fields.append ((State.writeP_fields _ _).append (State.finish_fields _ _ _))).mono (by decide)

/-! ### The statements -/

/-- Settles O50: each push is the pattern of its width. -/
theorem pushesStoreTheirValue : Obligations.PushesStoreTheirValue := by
  intro s
  refine ⟨?_, pushByte_pushes rfl tableCost_phb rfl, pushWord_pushes rfl tableCost_phd rfl,
    pushByte_pushes rfl tableCost_phk rfl, pushByte_pushes rfl tableCost_php rfl, ?_, ?_,
    fun v => pushWord_pushes rfl (tableCost_pea v) rfl, fun d => pushIndirect_pushes rfl (tableCost_pei d) rfl,
    fun r => pushWord_pushes rfl (tableCost_per r) rfl⟩
  · rw [← s.pushW_acc]
    exact pushRegister_pushes rfl tableCost_pha rfl
  · rw [← s.pushW_ofNarrow]
    exact pushRegister_pushes rfl tableCost_phx rfl
  · rw [← s.pushW_ofNarrow]
    exact pushRegister_pushes rfl tableCost_phy rfl

/-- Settles O51: each pull is the pattern of its register, and PLP goes through `WriteP`. -/
theorem pullsLoadTheirRegister : Obligations.PullsLoadTheirRegister := by
  intro s rm rx r8 r16
  refine ⟨s.pullW_val_toNat, ?_, ?_, ?_, ?_, ?_, ?_⟩
  · have pla := pullAcc_pullsInto rfl tableCost_pla s
    exact ⟨_, rfl, setsAcc_accWith (s.accWith_pullW _ _), pla.nz, pla.bus, pla.sp, pla.finishes, pla.fields,
      pla.flags, pla.memory⟩
  · have plx := pullX_pullsInto rfl tableCost_plx s
    exact ⟨_, rfl, s.trunc_pullW _, plx.nz, plx.bus, plx.sp, plx.finishes, plx.fields, plx.flags, plx.memory⟩
  · have ply := pullY_pullsInto rfl tableCost_ply s
    exact ⟨_, rfl, s.trunc_pullW _, ply.nz, ply.bus, ply.sp, ply.finishes, ply.fields, ply.flags, ply.memory⟩
  · have plb := pullDataBank_pullsInto rfl tableCost_plb s
    obtain ⟨hn, hz⟩ := setsNZ_zeroExtend8 plb.nz
    exact ⟨_, rfl, rfl, hn, hz, plb.bus, plb.sp, plb.finishes, plb.fields, plb.flags, plb.memory⟩
  · have pld := pullDirect_pullsInto rfl tableCost_pld s
    exact ⟨_, rfl, rfl, pld.nz, pld.bus, pld.sp, pld.finishes, pld.fields, pld.flags, pld.memory⟩
  · exact ⟨_, rfl, pullStatus_writesP _ s, rfl, rfl, finishes_finish rfl tableCost_plp rfl rfl 1,
      pullStatus_fields _ s, s.onlyRead_pull8.keepsMemory⟩

end Sys2Proof.Machine

/-! SUPPORT. The status and system instructions: what a change of flags leaves alone, the two directions of
XCE, and the entry to a software interrupt's handler and the return from it (47_status_system.md R371 to R387,
60_exceptions.md R410). -/

namespace Sys2Proof.Machine

/-! ### Frames -/

/-- Frames of flags compose: what two changes write is what either writes. -/
theorem KeepsFlagsBut.append {fs gs : List Flag} {s t u : State} (h : KeepsFlagsBut fs s t)
    (h' : KeepsFlagsBut gs t u) : KeepsFlagsBut (fs ++ gs) s u := fun f hf =>
  (h' f fun hg => hf (List.mem_append_right fs hg)).trans (h f fun hg => hf (List.mem_append_left gs hg))

theorem State.withRun_fields (s : State) (r : RunState) : KeepsFieldsBut [.run] s { s with run := r } := by
  intro f hf
  cases f with
  | run => exact absurd (by decide) hf
  | _ => rfl

/-! ### Flags, the status register and the run state -/

section Status

variable {i : Instr} {k : Cost} {s : State} (hi : i.shape = .other) (hk : i.tableCost = k)
include hi hk

/-- The instructions of one flag (R371 to R377). -/
theorem writeFlag_writes {f : Flag} {v : Bool} (h : exec i s = .next (writeFlag f v k s)) :
    ∃ t, exec i s = .next t ∧ t.flag f = v ∧ RegisterOnly i [] [f] s t := by
  subst hk
  exact ⟨_, h, getFlag_putFlag_self f v s.p, registerOnly_of hi rfl rfl rfl
    ((s.keepsFields_setFlag f v).append (State.finish_fields _ _ _)) (s.keepsFlags_setFlag f v)⟩

/-- REP and SEP are `WriteP` and the end of the instruction (R378, R379). -/
theorem writeStatus_writes {v : Byte} (h : exec i s = .next (writeStatus v k s)) :
    ∃ t, exec i s = .next t ∧ WritesP v s t ∧ t.bus = s.bus ∧ Finishes i 2 s t ∧
      KeepsFieldsBut [.x, .y, .pc, .cycles] s t ∧ KeepsMemory s t :=
  ⟨_, h, writesP_of_writeP rfl rfl rfl, rfl, finishes_finish (s := s) hi hk rfl rfl 2,
    (s.writeP_fields v).append (State.finish_fields _ _ _), fun _ => rfl⟩

theorem enterRunState_registerOnly (r : RunState) : RegisterOnly i [.run] [] s (enterRunState r k s) := by
  subst hk
  exact registerOnly_of hi rfl rfl rfl ((s.withRun_fields r).append (State.finish_fields _ _ _))
    (keepsFlags_of_eq rfl _)

theorem finish_registerOnly : RegisterOnly i [] [] s (s.finish 1 (plainCost k s)) := by
  subst hk
  exact registerOnly_of hi rfl rfl rfl (s.finish_fields _ _) (keepsFlags_of_eq rfl _)

end Status

/-! ### XCE -/

section Exchange

variable (k : Cost) (s : State)

theorem exchangeCE_flag_c : (exchangeCE k s).flag .c = s.e := by
  rw [State.flag, exchangeCE_p]
  split <;> simp [getFlag_putFlag]

theorem exchangeCE_fields : KeepsFieldsBut [.e, .x, .y, .sp, .pc, .cycles] s (exchangeCE k s) := by
  intro f hf
  cases f with
  | e | x | y | sp | pc | cycles => exact absurd (by decide) hf
  | _ => rfl

variable {s}

/-- With the carry set XCE enters, or stays in, emulation mode. -/
theorem exchangeCE_of_carry (h : s.flag .c = true) : exchangeCE k s =
    { ((s.setFlag .c s.e).setFlag .m true).setFlag .x true with
      e  := true
      x  := s.x &&& 0xFF
      y  := s.y &&& 0xFF
      sp := joinBytes 0x01 (lowByte s.sp) }.finish 1 (plainCost k s) := by
  simp only [exchangeCE, h, if_true]
  rfl

/-- With the carry clear XCE enters, or stays in, native mode. -/
theorem exchangeCE_of_no_carry (h : s.flag .c = false) : exchangeCE k s =
    { s.setFlag .c s.e with e := false }.finish 1 (plainCost k s) := by
  simp only [exchangeCE, h, Bool.false_eq_true, if_false]
  rfl

theorem exchangeCE_emulation (h : (exchangeCE k s).e = true) :
    (exchangeCE k s).flag .m = true ∧ (exchangeCE k s).flag .x = true ∧
      (exchangeCE k s).x = s.x &&& 0xFF ∧ (exchangeCE k s).y = s.y &&& 0xFF ∧
      (exchangeCE k s).sp.toNat = 0x100 + s.sp.toNat % 256 ∧
      KeepsFlagsBut [.c, .m, .x] s (exchangeCE k s) := by
  rw [exchangeCE_of_carry k h]
  refine ⟨?_, getFlag_putFlag_self .x true _, rfl, rfl, ?_, ?_⟩
  · exact (getFlag_putFlag_ne (by decide) true _).trans (getFlag_putFlag_self .m true _)
  · exact (joinBytes_toNat 0x01 (lowByte s.sp)).trans (congrArg (0x100 + ·) (lowByte_toNat s.sp))
  · exact ((s.keepsFlags_setFlag .c s.e).append (State.keepsFlags_setFlag _ .m true)).append
      (State.keepsFlags_setFlag _ .x true)

theorem exchangeCE_native (h : (exchangeCE k s).e = false) :
    (exchangeCE k s).x = s.x ∧ (exchangeCE k s).y = s.y ∧ (exchangeCE k s).sp = s.sp ∧
      KeepsFlagsBut [.c] s (exchangeCE k s) := by
  rw [exchangeCE_of_no_carry k h]
  exact ⟨rfl, rfl, rfl, s.keepsFlags_setFlag .c s.e⟩

end Exchange

/-! ### The entry to a handler and the return from it -/

/-- BRK and COP are one entry, through the vector of their instruction (R381, R382). -/
theorem exec_softwareInterrupt {sig : Byte} {i : Instr} (h : i = .brk sig ∨ i = .cop sig) (s : State) :
    exec i s = .next (s.interruptEntry (if i = .brk sig then s.brkVector else s.copVector) ⟨7, [.n4]⟩) := by
  rcases h with rfl | rfl
  · rw [if_pos rfl]
    rfl
  · rw [if_neg nofun]
    rfl

/-- Note 4 adds the cycle of the bank's push (70_reset_and_hazards.md R472). -/
theorem plainCost_interruptEntry (s : State) :
    ((plainCost ⟨7, [.n4]⟩ s : Nat) : Int) = if s.e then 7 else 8 := by
  simp only [plainCost, cycleCost, Note.adds]
  cases s.e <;> rfl

namespace State

variable (s : State) (v : Word) (k : Cost)

theorem interruptEntry_flags : (s.interruptEntry v k).flag .i = true ∧
    (s.interruptEntry v k).flag .d = false ∧ KeepsFlagsBut [.i, .d] s (s.interruptEntry v k) := by
  have written : (s.interruptEntry v k).p = ((s.setFlag .i true).setFlag .d false).p := by
    rw [interruptEntry_eq]
    rfl
  have kept := (s.keepsFlags_setFlag .i true).append ((s.setFlag .i true).keepsFlags_setFlag .d false)
  simp only [KeepsFlagsBut, flag, written]
  exact ⟨(getFlag_putFlag_ne (by decide) false _).trans (getFlag_putFlag_self .i true s.p),
    getFlag_putFlag_self .d false _, kept⟩

theorem interruptEntry_fields : KeepsFieldsBut [.sp, .pbr, .pc, .cycles] s (s.interruptEntry v k) := by
  rw [interruptEntry_eq]
  intro f hf
  cases f with
  | sp | pbr | pc | cycles => exact absurd (by decide) hf
  | _ => rfl

theorem interruptEntry_cycles : (s.interruptEntry v k).cycles = s.cycles + (plainCost k s : Nat) := by
  rw [interruptEntry_eq]

theorem interruptReturn_fields :
    KeepsFieldsBut [.x, .y, .sp, .pbr, .pc, .cycles] s (s.interruptReturn k) := by
  rw [interruptReturn_eq]
  intro f hf
  cases f with
  | x | y | sp | pbr | pc | cycles => exact absurd (by decide) hf
  | _ => rfl

/-- The return's pulls, the bank's among them in native mode, read only. -/
theorem onlyRead_interruptReturn : s.bus.OnlyRead (s.interruptReturn k).bus := by
  have pulled := s.onlyRead_pull8.trans (onlyRead_pull16 _)
  rw [interruptReturn_eq]
  change s.bus.OnlyRead (if s.e then _ else _)
  split
  · exact pulled
  · exact pulled.trans (onlyRead_pull8 _)

end State

/-! ### The statements -/

/-- Settles O53: each is `WriteP` of the masked P. -/
theorem repAndSepWriteP : Obligations.RepAndSepWriteP := fun mask _ =>
  ⟨writeStatus_writes rfl (tableCost_rep mask) rfl, writeStatus_writes rfl (tableCost_sep mask) rfl⟩

/-- Settles O54: the new E, which is the old carry, decides which of the two directions was taken. -/
theorem xceExchangesCarryAndEmulation : Obligations.XceExchangesCarryAndEmulation := fun s =>
  ⟨_, rfl, rfl, exchangeCE_flag_c _ s, exchangeCE_emulation _, exchangeCE_native _, rfl,
    finishes_finish rfl tableCost_xce rfl rfl 1, exchangeCE_fields _ s, fun _ => rfl⟩

/-- Settles O55: the entry, through the vector of the instruction and the mode. -/
theorem brkAndCopEnterTheirHandler : Obligations.BrkAndCopEnterTheirHandler := by
  intro sig s i h u vector
  obtain ⟨hi, hd, flags⟩ := s.interruptEntry_flags vector ⟨7, [.n4]⟩
  exact ⟨_, exec_softwareInterrupt h s, rfl, rfl, hi, hd, flags, rfl, rfl,
    (s.interruptEntry_cycles vector _).trans (congrArg (s.cycles + ·) (plainCost_interruptEntry s)),
    s.interruptEntry_fields vector _, s.onlyStored_pushInterruptFrame.keepsMemoryBut⟩

/-- Settles O56: the return field by field, P and the indexes through `WriteP`. -/
theorem rtiRestoresPThenPc : Obligations.RtiRestoresPThenPc := by
  intro s p r b
  have return_eq := s.interruptReturn_eq ⟨6, [.n4]⟩
  refine ⟨_, congrArg Host.Outcome.next return_eq, writesP_of_writeP rfl rfl rfl, rfl, rfl, rfl, rfl, ?_,
    return_eq ▸ s.interruptReturn_fields _, (return_eq ▸ s.onlyRead_interruptReturn _).keepsMemory⟩
  rw [cost_eq_plainCost rfl tableCost_rti s]

/-- Settles O52, instruction by instruction. -/
theorem flagInstructionsWriteOneFlag : Obligations.FlagInstructionsWriteOneFlag := by
  intro s i f v h
  simp only [List.mem_cons, List.not_mem_nil, or_false, Prod.mk.injEq] at h
  rcases h with ⟨rfl, rfl, rfl⟩ | ⟨rfl, rfl, rfl⟩ | ⟨rfl, rfl, rfl⟩ | ⟨rfl, rfl, rfl⟩ | ⟨rfl, rfl, rfl⟩ |
    ⟨rfl, rfl, rfl⟩ | ⟨rfl, rfl, rfl⟩
  · exact writeFlag_writes rfl tableCost_clc rfl
  · exact writeFlag_writes rfl tableCost_cld rfl
  · exact writeFlag_writes rfl tableCost_cli rfl
  · exact writeFlag_writes rfl tableCost_clv rfl
  · exact writeFlag_writes rfl tableCost_sec rfl
  · exact writeFlag_writes rfl tableCost_sed rfl
  · exact writeFlag_writes rfl tableCost_sei rfl

/-- Settles O58: the run state and the end of the instruction, or the end alone; what the call returns is
the first clause of `onlyWaiAndStpReturnFalse`. -/
theorem waiStpNopWdmDoLittle : Obligations.WaiStpNopWdmDoLittle := fun s =>
  ⟨⟨_, rfl, rfl, enterRunState_registerOnly rfl tableCost_wai .waiting⟩,
    ⟨_, rfl, rfl, enterRunState_registerOnly rfl tableCost_stp .stopped⟩,
    ⟨_, rfl, finish_registerOnly rfl tableCost_nop⟩,
    fun sig => ⟨_, rfl, rfl, rfl, finishes_finish rfl (tableCost_wdm sig) rfl rfl 2, s.finish_fields _ _,
      fun _ => rfl⟩,
    fun hs hi => (onlyWaiAndStpReturnFalse s hs).left.mpr hi⟩

end Sys2Proof.Machine

/-! SUPPORT. Width states, the return that undoes a software interrupt, and what the host's getters show
(60_exceptions.md R400, R410, R413, R422, R433). -/

namespace Sys2Proof.Machine

/-! ### Whole-P writers -/

section WholeP

variable {mask : Byte} {i : Instr} {s t : State}

theorem writesP_of_exec_rep (h : exec (.rep mask) s = .next t) : WritesP (s.p &&& (mask ^^^ 0xFF)) s t := by
  cases h
  exact writesP_of_writeP rfl rfl rfl

theorem writesP_of_exec_sep (h : exec (.sep mask) s = .next t) : WritesP (s.p ||| mask) s t := by
  cases h
  exact writesP_of_writeP rfl rfl rfl

/-- PLP and RTI both pull P first. -/
theorem writesP_of_exec_pull (hi : i = .plp ∨ i = .rti) (h : exec i s = .next t) :
    WritesP s.pull8.val s t := by
  rcases hi with rfl | rfl
  · cases h
    exact pullStatus_writesP _ s
  · obtain ⟨t', ht, written, -⟩ := rtiRestoresPThenPc s
    cases h.symm.trans ht
    exact written

theorem writesP_of_wholePWriter (hi : WholePWriter i) (h : exec i s = .next t) : ∃ v, WritesP v s t := by
  rcases hi with rfl | rfl | ⟨mask, rfl | rfl⟩
  · exact ⟨_, writesP_of_exec_pull (.inl rfl) h⟩
  · exact ⟨_, writesP_of_exec_pull (.inr rfl) h⟩
  · exact ⟨_, writesP_of_exec_rep h⟩
  · exact ⟨_, writesP_of_exec_sep h⟩

/-- No writer of the width flags writes the accumulator. -/
theorem c_of_widthWriter (hi : Flag.m.Writer i) (h : exec i s = .next t) : t.c = s.c := by
  rcases hi with hi | rfl
  · rcases hi with rfl | rfl | ⟨mask, rfl | rfl⟩
    · cases h
      rfl
    · cases h
      exact s.interruptReturn_fields _ .c (by decide)
    · cases h
      rfl
    · cases h
      rfl
  · cases h
    rfl

/-- In native mode the width flags are bits 5 and 4 of the byte written (R370). -/
theorem widthState_of_writesP {v : Byte} (hw : WritesP v s t) (hs : s.e = false) (he : t.e = s.e) :
    t.widthState = .of false (v.getLsbD 5) (v.getLsbD 4) := by
  have hp : t.p = v := hw.1.trans (if_neg (by simp [hs]))
  rw [State.widthState, State.flag, State.flag, hp, he, hs]
  rfl

end WholeP

/-! ### Width states -/

section Widths

variable {i : Instr} {s t : State}

theorem e_of_exec (h : exec i s = .next t) (hi : i ≠ .xce) : t.e = s.e := (exec_effect h).fields .e (by decide) hi

theorem widthState_of_exec (h : exec i s = .next t) (hx : i ≠ .xce) (hp : ¬WholePWriter i) :
    t.widthState = s.widthState := by
  have flags {f : Flag} : f ≠ .n → f ≠ .z → ¬f.Writer i → t.flag f = s.flag f := (exec_effect h).flags f
  rw [State.widthState, e_of_exec h hx, flags (f := .m) (by decide) (by decide) (not_or.mpr ⟨hp, hx⟩),
    flags (f := .x) (by decide) (by decide) (not_or.mpr ⟨hp, hx⟩)]
  rfl

theorem widthState_of_emulation (h : s.e = true) : s.widthState = .emulation := if_pos h

theorem widthState_exchangeCE (k : Cost) (s : State) : (exchangeCE k s).widthState =
    if s.flag .c then .emulation else .of false (s.flag .m) (s.flag .x) := by
  have he : (exchangeCE k s).e = s.flag .c := rfl
  cases hc : s.flag .c with
  | true => exact widthState_of_emulation (he.trans hc)
  | false =>
    obtain ⟨-, -, -, kept⟩ := exchangeCE_native k (he.trans hc)
    rw [State.widthState, he, hc, kept .m (by decide), kept .x (by decide)]
    rfl

theorem narrow_of_low (hx : t.x = s.x &&& 0xFF) (hy : t.y = s.y &&& 0xFF) : highByte t.x = 0 ∧ highByte t.y = 0 := by
  rw [hx, hy]
  exact ⟨highByte_trunc_w8 s.x, highByte_trunc_w8 s.y⟩

/-- Whichever instruction sets X clears XH and YH (R370, R380). -/
theorem narrow_of_exec (h : exec i s = .next t) (hs : s.flag .x = false) (ht : t.flag .x = true) :
    highByte t.x = 0 ∧ highByte t.y = 0 := by
  have hi : Flag.x.Writer i := not_imp_comm.mp ((exec_effect h).flags .x (by decide) (by decide)) (by simp [hs, ht])
  rcases hi with hi | rfl
  · obtain ⟨v, -, hx, hy⟩ := writesP_of_wholePWriter hi h
    exact narrow_of_low (hx.trans (if_pos ht)) (hy.trans (if_pos ht))
  · cases h
    cases he : (exchangeCE ⟨2, []⟩ s).e with
    | true =>
      obtain ⟨-, -, hx, hy, -⟩ := exchangeCE_emulation _ he
      exact narrow_of_low hx hy
    | false =>
      obtain ⟨-, -, -, kept⟩ := exchangeCE_native _ he
      exact absurd ((kept .x (by decide)).symm.trans ht) (by simp [hs])

/-- Whichever instruction sets M keeps B. -/
theorem b_of_exec (h : exec i s = .next t) (hs : s.flag .m = false) (ht : t.flag .m = true) : t.b = s.b := by
  have hi : Flag.m.Writer i := not_imp_comm.mp ((exec_effect h).flags .m (by decide) (by decide)) (by simp [hs, ht])
  exact congrArg highByte (c_of_widthWriter hi h)

end Widths

/-! ### A return after its software interrupt -/

/-- `WriteP` leaves an index whose high byte is 0 wherever X is set. -/
theorem trunc_of_narrow {x : Bool} {v : Word} (h : x = true → highByte v = 0) :
    (if x then Width.w8 else Width.w16).trunc v = v := by
  cases x with
  | false => exact Width.trunc_w16 v
  | true =>
    refine Width.trunc_of_lt (w := .w8) ?_
    have high := congrArg BitVec.toNat (h rfl)
    rw [highByte_toNat] at high
    exact Nat.lt_of_div_eq_zero (by decide) high

namespace State

/-- The bank that an interrupt frame begins with: none in emulation mode (60_exceptions.md R410). -/
def frameBank (s : State) : List Byte := if s.e then [] else [s.pbr]

/-- The bytes of an interrupt frame, in the order they are pushed. -/
def frame (s : State) : List Byte :=
  s.frameBank ++ [highByte (s.pc + 2), lowByte (s.pc + 2), pushedP s.e s.p]

theorem length_frame (s : State) : s.frame.length = s.frameBank.length + 3 := List.length_append

theorem length_frame_eq_ite (s : State) : s.frame.length = if s.e then 3 else 4 := by
  rw [length_frame, frameBank]
  cases s.e <;> rfl

theorem length_frame_lt (s : State) : s.frame.length < 256 := by
  rw [length_frame_eq_ite]
  split <;> decide

theorem pushInterruptFrame_eq_pushes (s : State) : s.pushInterruptFrame = s.pushes s.frame := by
  unfold pushInterruptFrame frame frameBank
  cases s.e <;> rfl

theorem pushInterruptFrame_sp (s : State) :
    s.pushInterruptFrame.sp = (stackDown s.e)^[s.frameBank.length + 3] s.sp := by
  rw [pushInterruptFrame_eq_pushes, pushes_frame, length_frame]

theorem Inv.page {s : State} (h : s.Inv) (he : s.e = true) : highByte s.sp = 0x01 := by
  obtain ⟨-, -, -, -, hs⟩ := h.emulation he
  exact hs

/-- In emulation mode the two width bits, set in the byte pushed and in the byte written, were set before. -/
theorem writtenP_pushedP {s : State} (h : s.EmulationInv) : writtenP s.e (pushedP s.e s.p) = s.p := by
  cases he : s.e with
  | false => rfl
  | true =>
    obtain ⟨hm, hx, -⟩ := h he
    rw [flag] at hm hx
    refine p_ext fun f => ?_
    cases f <;> simp [getFlag_writtenP, pushedP, getFlag_or_widths, hm, hx]

/-- `WriteP` of the byte an interrupt pushed gives back the P, and leaves the indexes, that the invariant allows. -/
theorem writeP_pushedP {s u : State} (h : s.Inv) (he : u.e = s.e) (hx : u.x = s.x) (hy : u.y = s.y) :
    u.writeP (pushedP s.e s.p) = { u with p := s.p } := by
  have narrow (hn : getFlag s.p .x = true) : highByte u.x = 0 ∧ highByte u.y = 0 := by
    rw [hx, hy]
    exact h.narrow (by simp [indexIs8, flag, hn])
  rw [writeP, he, writtenP_pushedP h.emulation, trunc_of_narrow fun hn => (narrow hn).left,
    trunc_of_narrow fun hn => (narrow hn).right, ← he]

section AfterFrame

variable {s u : State} (h : s.Inv) (hh : ∀ a ∈ pushSlots s.e s.frame.length s.sp, s.bus.Holds a)
  (he : u.e = s.e) (hbus : ∀ a, u.bus.peek a = (s.pushes s.frame).bus.peek a)
include h hh he hbus

/-- P is pulled first. -/
theorem pull8_after_frame (hsp : u.sp = (stackDown s.e)^[s.frameBank.length + 3] s.sp) : u.pull8 =
    { val := pushedP s.e s.p, st := { u with sp := (stackDown s.e)^[s.frameBank.length + 2] s.sp } } := by
  rw [pull8_pushed (j := s.frameBank.length + 2) s.length_frame_lt h.memory h.page hh (by simp [length_frame]) he
    hsp hbus]
  simp [frame]

/-- The address, pushed before P, is pulled after it. -/
theorem pull16_after_frame (hsp : u.sp = (stackDown s.e)^[s.frameBank.length + 2] s.sp) : u.pull16 =
    { val := s.pc + 2, st := { u with sp := (stackDown s.e)^[s.frameBank.length] s.sp } } := by
  rw [pull16_pushed (j := s.frameBank.length) h.memory h.page he s.length_frame_lt hh (by simp [length_frame])
    hsp hbus]
  simp [frame]

/-- The bank is pulled last, in native mode. -/
theorem pullReturnBank_after_frame (hsp : u.sp = (stackDown s.e)^[s.frameBank.length] s.sp) :
    u.pullReturnBank = { val := if s.e then u.pbr else s.pbr, st := { u with sp := s.sp } } := by
  cases hs : s.e with
  | true =>
    have hsp : u.sp = s.sp := by simpa [frameBank, hs] using hsp
    rw [pullReturnBank, if_pos (he.trans hs), if_pos rfl, ← hsp]
  | false =>
    have bank : s.frameBank = [s.pbr] := by simp [frameBank, hs]
    rw [bank] at hsp
    rw [pullReturnBank, if_neg (by simp [he, hs]), if_neg nofun,
      pull8_pushed (j := 0) s.length_frame_lt h.memory h.page hh (by simp [length_frame]) he hsp hbus]
    simp [frame, bank]

/-- The return, field by field, where the stack is as the entry's frame left it. -/
theorem interruptReturn_after_frame (hsp : u.sp = (stackDown s.e)^[s.frameBank.length + 3] s.sp) (k : Cost) :
    u.interruptReturn k = { u.writeP (pushedP s.e s.p) with
      sp     := s.sp
      pc     := s.pc + 2
      pbr    := if s.e then u.pbr else s.pbr
      cycles := u.cycles + (plainCost k u : Nat) } := by
  have status := pull8_after_frame h hh he hbus hsp
  have address := pull16_after_frame (u := u.pull8.st.writeP u.pull8.val) h hh he (by rw [status]; exact hbus)
    (by rw [status]; rfl)
  have bank := pullReturnBank_after_frame (u := (u.pull8.st.writeP u.pull8.val).pull16.st) h hh he
    (by rw [address, status]; exact hbus) (by rw [address])
  rw [interruptReturn]
  simp only [bank]
  rw [address, status]
  rfl

end AfterFrame

/-- A return undoes the entry before it: all that it leaves changed is the stack's memory, the program address
and the cycles. -/
theorem interruptReturn_interruptEntry {s : State} (h : s.Inv)
    (hh : ∀ a ∈ pushSlots s.e (if s.e then 3 else 4) s.sp, s.bus.Holds a) (v : Word) (k k' : Cost) :
    (s.interruptEntry v k).interruptReturn k' = { s with
      bus    := s.pushInterruptFrame.bus
      pc     := s.pc + 2
      pbr    := if s.e then 0 else s.pbr
      cycles := s.cycles + (plainCost k s : Nat) + (plainCost k' (s.interruptEntry v k) : Nat) } := by
  rw [← length_frame_eq_ite] at hh
  have entry := s.interruptEntry_eq v k
  have bus : (s.interruptEntry v k).bus = (s.pushes s.frame).bus := by rw [entry, ← pushInterruptFrame_eq_pushes]
  rw [interruptReturn_after_frame h hh (by rw [entry]) (by simp [bus]) (by rw [entry]; exact s.pushInterruptFrame_sp),
    writeP_pushedP h (by rw [entry]) (by rw [entry]) (by rw [entry]), entry]

end State

/-! ### The host's getters -/

theorem state_of_getter {h : HostAction} (s : State) (hg : h.isGetter = true) : (h.apply s).2 = s := by
  cases h with
  | getRegister | getFlag | getE | getCycles | getRES | getRDY | getRun | getDeviceState => rfl
  | registerDevice | setRESPin | setRDYPin | reset | executeNextInstruction | setRegister | setFlag | setE
  | readByte | storeByte | readTwoBytes | storeTwoBytes | readAddressAt | setDeviceState =>
    simp [HostAction.isGetter] at hg

/-- Each field but the configuration has a getter, which answers its value in full. -/
theorem fields_of_sameAnswers {s t : State}
    (h : ∀ a : HostAction, a.isGetter = true → (a.apply t).1 = (a.apply s).1) : KeepsFieldsBut [.cfg] s t := by
  have register (r : Register) : t.getRegister r = s.getRegister r := HostResult.nat.inj (h (.getRegister r) rfl)
  intro f hf
  cases f with
  | c => exact BitVec.eq_of_toNat_eq (register .c)
  | x => exact BitVec.eq_of_toNat_eq (register .x)
  | y => exact BitVec.eq_of_toNat_eq (register .y)
  | d => exact BitVec.eq_of_toNat_eq (register .d)
  | sp => exact BitVec.eq_of_toNat_eq (register .s)
  | dbr => exact BitVec.eq_of_toNat_eq (register .dbr)
  | pbr => exact BitVec.eq_of_toNat_eq (register .pbr)
  | pc => exact BitVec.eq_of_toNat_eq (register .pc)
  | e => exact HostResult.bool.inj (h .getE rfl)
  | cycles => exact HostResult.int.inj (h .getCycles rfl)
  | res => exact HostResult.bool.inj (h .getRES rfl)
  | rdy => exact HostResult.bool.inj (h .getRDY rfl)
  | run => exact HostResult.run.inj (h .getRun rfl)
  | cfg => exact absurd (by decide) hf

/-! ### The statements -/

/-- Settles O7: `exec` is total, and a step is `exec` of what it fetched or leaves the state as it is. -/
theorem everyStepAnswersNext : Obligations.EveryStepAnswersNext := by
  refine ⟨exec_total, fun s => ?_⟩
  by_cases he : s.Executing
  · rw [step_of_executing he]
    exact exec_total _ _
  · exact ⟨s, step_of_not_executing he⟩

/-- Settles O57: the state after the return is the one before the interrupt but for the bus, the program
address and the cycles. -/
theorem rtiUndoesBrkAndCop : Obligations.RtiUndoesBrkAndCop := by
  intro sig s i hi h hh
  refine ⟨_, _, exec_softwareInterrupt hi s, rfl, ?_⟩
  rw [State.interruptReturn_interruptEntry h hh]
  refine ⟨rfl, rfl, rfl, fun f hf => ?_⟩
  cases f with
  | pbr | pc | cycles => exact absurd (by decide) hf
  | _ => rfl

/-- Settles O17, row by row. -/
theorem widthStateTransitions : Obligations.WidthStateTransitions := by
  refine ⟨fun _ => rfl, fun i s t h => ⟨?_, ?_, ?_, ?_, ?_, ?_, narrow_of_exec h, b_of_exec h⟩, ?_⟩
  · rintro hx hplp hrti hmask
    refine widthState_of_exec h hx ?_
    rintro (hi | hi | ⟨mask, hi | hi⟩)
    · exact hplp hi
    · exact hrti hi
    · exact (hmask mask).left hi
    · exact (hmask mask).right hi
  · exact fun hs hx => widthState_of_emulation ((e_of_exec h hx).trans hs)
  · rintro rfl
    cases h
    exact widthState_exchangeCE _ s
  · rintro hs mask rfl
    rw [widthState_of_writesP (writesP_of_exec_rep h) hs (e_of_exec h nofun)]
    simp [State.flag, getFlag, Flag.bit]
  · rintro hs mask rfl
    rw [widthState_of_writesP (writesP_of_exec_sep h) hs (e_of_exec h nofun)]
    simp [State.flag, getFlag, Flag.bit]
  · intro hs hi
    exact widthState_of_writesP (writesP_of_exec_pull hi h) hs
      (e_of_exec h (by rcases hi with rfl | rfl <;> exact nofun))
  · intro s t hs he hc h
    obtain ⟨hm, hx, -⟩ := hs he
    cases h
    rw [widthState_exchangeCE, hc, hm, hx]
    rfl

/-- Settles O59: no getter writes, and what a getter answers determines the piece of state it reads. -/
theorem hostReadsAllState : Obligations.HostReadsAllState :=
  ⟨fun _ s hg => state_of_getter s hg, fun _ _ h => ⟨fields_of_sameAnswers h,
    p_ext fun f => HostResult.bool.inj (h (.getFlag f) rfl),
    fun i => HostResult.deviceState.inj (h (.getDeviceState i) rfl)⟩⟩

end Sys2Proof.Machine

/-! SUPPORT. What each instruction adds to the cycle counter (70_reset_and_hazards.md R470 to R472), and the
model's reset state as the start of a run (R454, R456). -/

namespace Sys2Proof.Machine

/-! ### Cycles -/

/-- A pattern's cost is that of its row, with the page-cross bit of its operand or of its target. -/
theorem Shape.run_cycles {sh : Shape} (hsh : sh ≠ .other) (k : Cost) (s : State) :
    (sh.run k s).cycles = s.cycles + (sh.cost k s : Nat) := by
  cases sh with
  | acc op o => exact (accumulate_spec _ o k s).cycles
  | loadX o => exact (ldx_spec o k s).cycles
  | loadY o => exact (ldy_spec o k s).cycles
  | compare r o => exact (testOperand_spec _ _ _ o k s).cycles
  | bit o => exact (testOperand_spec _ _ _ o k s).cycles
  | store r m => exact (storeValue_spec _ _ m k s).cycles
  | modify op m => exact (modifyMemory_spec _ m k s).cycles
  | modifyA op => exact (modifyAccumulator_spec _ k s).cycles
  | branch cond r => exact congrArg (fun crossed => s.cycles + (cycleCost k s crossed _ : Nat)) (highByte_bne _ _)
  | other => exact absurd rfl hsh

/-- The instructions without a shape, by family: each pattern ends by adding its row's cost, evaluated in the
state before, and no transfer, push, pull, write of P or change of the program address on the way to that end
touches the counter. -/
theorem exec_other_cycles {i : Instr} (hi : i.shape = .other) (s : State) :
    ∃ t, exec i s = .next t ∧ t.cycles = s.cycles + (plainCost i.tableCost s : Nat) := by
  cases i
  case tax | tay | txa | tya | txy | tyx | tsx =>
    exact ⟨_, rfl, by simp [transferToX, transferToY, transferToAcc]⟩
  case txs | tcs | tsc | tcd | tdc | xba =>
    exact ⟨_, rfl, by simp [transferToS, transferToC, transferToD, exchangeBA]⟩
  case inx | iny | dex | dey => exact ⟨_, rfl, by simp [stepX, stepY]⟩
  case mvn | mvp => exact ⟨_, rfl, by simp [blockMove]⟩
  case pha | phx | phy | phb | phk | php | phd | pea | pei | per =>
    exact ⟨_, rfl, by simp [pushRegister, pushByte, pushWord, pushIndirect]⟩
  case pla | plx | ply | plb | pld | plp =>
    exact ⟨_, rfl, by simp [pullAcc, pullX, pullY, pullDataBank, pullDirect, pullStatus]⟩
  case clc | cld | cli | clv | sec | sed | sei => exact ⟨_, rfl, by simp [writeFlag]⟩
  case rep | sep | xce => exact ⟨_, rfl, by simp [writeStatus, exchangeCE]⟩
  case wai | stp | nop | wdm => exact ⟨_, rfl, by simp [enterRunState]⟩
  case brl | jmpJabs | jmlJlong => exact ⟨_, rfl, by simp [branchLong, jump]⟩
  case jmpIabs | jmpIabsx | jmlIlabs => exact ⟨_, rfl, by simp [jumpThrough, jumpThroughLong]⟩
  case jsrJabs | jsrIabsx | jsl => exact ⟨_, rfl, by simp [callAbs, callThrough, callLong, State.push24]⟩
  case rts | rtl => exact ⟨_, rfl, by simp [returnShort, returnLong]⟩
  case brk | cop => exact ⟨_, rfl, by simp [State.interruptEntry_cycles]⟩
  case rti => exact ⟨_, rfl, by simp [State.interruptReturn_eq]⟩
  all_goals cases hi

theorem exec_cycles {i : Instr} {s t : State} (h : exec i s = .next t) : t.cycles = s.cycles + i.cost s := by
  by_cases hi : i.shape = .other
  · obtain ⟨t', h', cycles⟩ := exec_other_cycles hi s
    cases h.symm.trans h'
    rwa [cost_of_other hi]
  · cases h.symm.trans (exec_of_shape rfl hi s)
    rw [cost_of_shape rfl, Shape.run_cycles hi]

theorem two_le_cost (i : Instr) (s : State) : 2 ≤ i.cost s :=
  cost_eq_cycleCost i s ▸ two_le_cycleCost _ (two_le_baseCycles i.opcode) s _ _

/-! ### The reset state -/

/-- A RAM over the whole bus space claims every address. -/
theorem Device.decode_ram_wholeSpace (cells : Memory) (a : Address) :
    (Device.ram 0x000000 0xFFFFFF cells).decode a = some a :=
  if_pos ⟨Nat.zero_le _, Nat.le_of_lt_succ a.isLt⟩

theorem State.reset_claims (a : Address) : reset.bus.Claims a := by
  simp [Bus.Claims, Bus.resolve, reset, resolveIn, Device.decode_ram_wholeSpace]

theorem State.reset_bus_wf : reset.bus.wf := by decide

/-- The reset state already holds what `reset()` writes. -/
theorem State.performReset_reset : reset.performReset = reset := by decide

theorem State.reset_launched (uses : Address → Prop) : reset.Launched uses where
  released := rfl
  reset := ⟨reset, reset_bus_wf, performReset_reset.symm⟩
  entry := reset_claims _
  stack _ := reset_claims _
  used a _ := reset_claims a

/-! ### The statements -/

/-- Settles O18: an instruction adds the cost of its shape or of its row, and no row's base is below 2. -/
theorem cyclesFollowTheTable : Obligations.CyclesFollowTheTable :=
  fun i s _ h => ⟨exec_cycles h, two_le_cost i s⟩

/-- Settles O11: `reset()` leaves the reset state as it is, so that it meets the invariant, and its RAM
claims every address. -/
theorem resetStateIsLaunched : Obligations.ResetStateIsLaunched :=
  ⟨State.reset_launched, ⟨rfl, rfl⟩, State.performReset_reset ▸ State.inv_performReset State.reset_bus_wf, rfl, rfl⟩

end Sys2Proof.Machine
